-- ==== Sys2Proof/Word.lean ====
section
/-! DEFINITION. The one word of XRX: the byte (00_scope.md R7: "A byte is 8 bits"). Every field helper stands in Machine/Operands.lean. -/

namespace Sys2Proof

/-- A byte, bit 0 the least significant (R7). -/
abbrev Byte := BitVec 8

end Sys2Proof
end

