-- ==== Sys2Proof/Config.lean ====
section
/-! DEFINITION. What is fixed for one block: the fixed parameters of 00_scope.md R5, the open parameters of R6, and the free values (bodiless constants) that stand for what the spec leaves unspecified. -/

namespace Sys2Proof

namespace Config

/-- FRAME_LEN: bytes in one data frame and in one buffer (R5). -/
def frameLen : Nat := 84

/-- POOL_LEN: bytes in the pool, two buffers (R5). -/
def poolLen : Nat := 168

/-- DESC_LEN: bytes of the descriptor response (R5). -/
def descLen : Nat := 7

/-- CMD_LEN: bytes of the mode-switch command (R5). -/
def cmdLen : Nat := 9

/-- ECHO_OFF: offset of the inspected descriptor byte (R5). -/
def echoOff : Nat := 6

/-- ECHO_VALUE: the expected mode-echo byte (R5). -/
def echoValue : Byte := 0x82

/-- SYNC_VALUE: the required reconstructed sync byte (R5). -/
def syncValue : Byte := 0xA5

/-- CMD_BYTES: the mode-switch command, byte 0 first (R5, R92). -/
def cmdBytes : List Byte := [0xA5, 0x82, 0x05, 0x00, 0x00, 0x00, 0x00, 0x00, 0x22]

/-- OVR_POLICY: what the Reception Pipeline arms after an overrun (R6, 90_conflicts.md C4). -/
inductive OvrPolicy where
  | halt
  | rearmSame
deriving DecidableEq, Repr

/-- The open parameters that a rule reads (R6: "A model takes these as arguments"). They stand in State as a record
that no step writes (DESIGN CHOICE, log entry 12). -/
structure Params where
  ovrPolicy : OvrPolicy
  diagW     : Nat
deriving DecidableEq, Repr

/-- The defaults of R6: `halt` and 32. -/
def defaultParams : Params := { ovrPolicy := .halt, diagW := 32 }

/-- FREE VALUE (log entry 4): PUB_ANGLE_Q6 after RESET, "unspecified" (R39, R240). -/
opaque freeAngle : Nat → BitVec 16

/-- FREE VALUE (log entry 4): one bit for RXSP after RESET (R39, 93_implementation_defined.md U17). -/
opaque freeBit : Nat → Bool

/-- FREE VALUE (log entry 4): RXBASE after RESET (R39, U17). -/
opaque freeByte : Nat → Byte

/-- FREE VALUE (log entry 4): RXLEN and RXCNT after RESET (R39, U17). -/
opaque freeCount : Nat → BitVec 7

/-- FREE VALUE (log entry 13): which of its possible values a raced byte read returns
(43_frame_decoder.md R189: "independently per read"). -/
opaque racePick : Nat → Nat

end Config

end Sys2Proof
end

