-- ==== Sys2Proof/Syntax.lean ====
section
/-! DEFINITION. The syntax of XRX: the record formats of 30_encoding.md R90, and one constructor of `Instr` for each row of spec/opcode_table.json. -/

namespace Sys2Proof

/-- The formats of the opcode table: the operation ids (`EVT`, R100) and the three record formats of the link (R90). -/
inductive Format where
  | evt
  | c9
  | d7
  | f84
deriving DecidableEq, Repr

/-- The two data spaces (20_memory.md R60); RXSP holds one of them, 0 = DESC and 1 = POOL (10_state.md R28). -/
inductive Space where
  | desc
  | pool
deriving DecidableEq, Repr

/-- The operations (30_encoding.md R100), the script pseudo-operation RXC (R103) and the record classes (R99).
An operation without operands has none here: its operands are built into it (20_memory.md R73). -/
inductive Instr where
  /-- RESET, id 00, agent ENV (R240). -/
  | reset
  /-- START, id 01, agent TASK (R141). -/
  | start
  /-- WAITS, id 02, agent TASK (R142). -/
  | waits
  /-- DPOLL, id 03, agent TASK (R181). -/
  | dpoll
  /-- DCLR, id 04, agent TASK (R182). -/
  | dclr
  /-- DSYNC, id 05, agent TASK (R183). -/
  | dsync
  /-- DCSUM, id 06, agent TASK (R184). -/
  | dcsum
  /-- DANG, id 07, agent TASK (R185). -/
  | dang
  /-- DCAB, id 08: reserved (R186). -/
  | dcab
  /-- DFLIP, id 09, agent TASK (R187). -/
  | dflip
  /-- TA.ARM(space, base, len), id 10, agent TA (R121). -/
  | taArm (space : Space) (base : BitVec 8) (len : BitVec 7)
  /-- TA.RXB(b), id 11 followed by b, agent TA (R122). -/
  | taRxb (b : Byte)
  /-- TA.TX(bytes), id 12, agent TA (R123). -/
  | taTx (bytes : List Byte)
  /-- RXC.IDLE, id 18, agent RP (R143). -/
  | rxcIdle
  /-- RXC.HSOK, id 19, agent RP (R144). -/
  | rxcHsok
  /-- RXC.HSBAD, id 1A, agent RP (R145). -/
  | rxcHsbad
  /-- RXC.FRAME, id 1B, agent RP (R161). -/
  | rxcFrame
  /-- RXC.OVR, id 1C, agent RP (R162). -/
  | rxcOvr
  /-- RXC, id 1F: the one variant the dispatch selects (R103, R160). -/
  | rxc
  /-- CMD_XSCAN, the one C9 record (R92). -/
  | cmdXscan
  /-- DESC_OK: a D7 record with byte 6 = 82 (R93). -/
  | descOk (d : List Byte)
  /-- DESC_BAD: a D7 record with another byte 6 (R93). -/
  | descBad (d : List Byte)
  /-- FRAME_SYNCED: an F84 record in sync (R94, R99). -/
  | frameSynced (f : List Byte)
  /-- FRAME_UNSYNCED: an F84 record out of sync (R94, R99). -/
  | frameUnsynced (f : List Byte)
deriving DecidableEq, Repr

end Sys2Proof
end

