-- ==== Sys2Proof/WellFormed.lean ====
section
/-! DEFINITION. Which terms of `Instr` the spec admits: the operands XRX uses for TA.ARM and TA.TX, and the length and class of each record. -/

namespace Sys2Proof

/-- R121: "XRX uses exactly three operand triples". -/
def armTripleOk (space : Space) (base : BitVec 8) (len : BitVec 7) : Bool :=
  match space with
  | .desc => base == 0 && len == 7
  | .pool => (base == 0 || base == 84) && len == 84

/-- R93: a D7 record is 7 bytes. -/
def descLengthOk (d : List Byte) : Bool := d.length == 7

/-- R93: `DESC_OK` exactly when byte 6 is 82. -/
def descEchoOk (d : List Byte) : Bool := d[6]? == some 0x82

/-- R94: an F84 record is 84 bytes. -/
def frameLengthOk (f : List Byte) : Bool := f.length == 84

/-- R95: in sync exactly when `(byte0 and 0xF0) = 0xA0` and `(byte1 and 0xF0) = 0x50`. -/
def frameSyncOk (f : List Byte) : Bool :=
  (f[0]?.map (· &&& 0xF0)) == some 0xA0 && (f[1]?.map (· &&& 0xF0)) == some 0x50

/-- The well-formed instructions. -/
def Instr.wf : Instr → Bool
  | .reset => true
  | .start => true
  | .waits => true
  | .dpoll => true
  | .dclr => true
  | .dsync => true
  | .dcsum => true
  | .dang => true
  | .dcab => true
  | .dflip => true
  | .taArm space base len => armTripleOk space base len
  | .taRxb _ => true
  | .taTx bytes => bytes == Config.cmdBytes
  | .rxcIdle => true
  | .rxcHsok => true
  | .rxcHsbad => true
  | .rxcFrame => true
  | .rxcOvr => true
  | .rxc => true
  | .cmdXscan => true
  | .descOk d => descLengthOk d && descEchoOk d
  | .descBad d => descLengthOk d && !descEchoOk d
  | .frameSynced f => frameLengthOk f && frameSyncOk f
  | .frameUnsynced f => frameLengthOk f && !frameSyncOk f

end Sys2Proof
end

