-- ==== Sys2Proof/Decode.lean ====
section
/-! DEFINITION. From bytes to an instruction and back (30_encoding.md R99, R100, R102): the decoder, total and rejecting by name; the record table; the encoder; and the numbering of opcode-table words. -/

namespace Sys2Proof

/-- Why bytes are no instruction. -/
inductive DecodeError where
  /-- No byte is left. -/
  | empty
  /-- R100: the id is unassigned. -/
  | unassignedId (id : Byte)
  /-- The operand byte that follows the id is missing. -/
  | missingOperand (id : Byte)
  /-- R121: the selector names none of the three operand triples. -/
  | noSuchTriple (sel : Byte)
  /-- The record is shorter than its format (R90). -/
  | shortRecord (fmt : Format)
  /-- R92: the one C9 record is the mode-switch command. -/
  | notCommand
deriving DecidableEq, Repr

/-- The record classes of R99. -/
inductive RecordClass where
  | cmdXscan
  | descOk
  | descBad
  | frameSynced
  | frameUnsynced
deriving DecidableEq, Repr

/-- A row of the table for a record format: match and mask, byte 0 first (R99). -/
structure RecordRow where
  fmt  : Format
  bits : List Byte
  mask : List Byte
  cls  : RecordClass
deriving DecidableEq, Repr

/-- The record rows in file order (R99). -/
def recordRows : List RecordRow :=
  [ { fmt := .c9, bits := [0xA5, 0x82, 0x05, 0x00, 0x00, 0x00, 0x00, 0x00, 0x22]
      mask := List.replicate 9 0xFF, cls := .cmdXscan },
    { fmt := .d7, bits := List.replicate 6 0x00 ++ [0x82], mask := List.replicate 6 0x00 ++ [0xFF], cls := .descOk },
    { fmt := .d7, bits := List.replicate 7 0x00, mask := List.replicate 7 0x00, cls := .descBad },
    { fmt := .f84, bits := [0xA0, 0x50] ++ List.replicate 82 0x00
      mask := [0xF0, 0xF0] ++ List.replicate 82 0x00, cls := .frameSynced },
    { fmt := .f84, bits := List.replicate 84 0x00, mask := List.replicate 84 0x00, cls := .frameUnsynced } ]

/-- R99: `(r[i] and mask[i]) = match[i]` for every byte i. -/
def RecordRow.matches (row : RecordRow) (r : List Byte) : Bool :=
  List.zipWith (· &&& ·) r row.mask == row.bits

/-- R99: rows of one format are tried in file order and the first match wins. -/
def classify (fmt : Format) (r : List Byte) : Option RecordClass :=
  (recordRows.find? fun row => decide (row.fmt = fmt) && row.matches r).map (·.cls)

/-- R90: the fixed length of a record; an operation's shortest encoding for `evt`. -/
def Format.length : Format → Nat
  | .evt => 1
  | .c9 => 9
  | .d7 => 7
  | .f84 => 84

/-- The class's instruction. -/
def RecordClass.instr (cls : RecordClass) (r : List Byte) : Instr :=
  match cls with
  | .cmdXscan => .cmdXscan
  | .descOk => .descOk r
  | .descBad => .descBad r
  | .frameSynced => .frameSynced r
  | .frameUnsynced => .frameUnsynced r

/-- The operand triple of TA.ARM that a selector byte names. R121 gives the three triples and no encoding of them:
the byte after id 10 is DESIGN CHOICE, log entry 10. -/
def armOperands (sel : Byte) : Option (Space × BitVec 8 × BitVec 7) :=
  if sel = 0 then some (.desc, 0, 7)
  else if sel = 1 then some (.pool, 0, 84)
  else if sel = 2 then some (.pool, 84, 84)
  else none

/-- The selector byte of a triple (log entry 10). -/
def armSelector (space : Space) (base : BitVec 8) : Byte :=
  match space with
  | .desc => 0
  | .pool => if base = 0 then 1 else 2

/-- One line of a script's byte encoding (R100, R102): the id, then the operand byte where there is one. -/
def decodeEvt : List Byte → Except DecodeError (Instr × List Byte)
  | [] => .error .empty
  | id :: rest =>
    match id.toNat with
    | 0x00 => .ok (.reset, rest)
    | 0x01 => .ok (.start, rest)
    | 0x02 => .ok (.waits, rest)
    | 0x03 => .ok (.dpoll, rest)
    | 0x04 => .ok (.dclr, rest)
    | 0x05 => .ok (.dsync, rest)
    | 0x06 => .ok (.dcsum, rest)
    | 0x07 => .ok (.dang, rest)
    | 0x08 => .ok (.dcab, rest)
    | 0x09 => .ok (.dflip, rest)
    | 0x10 =>
      match rest with
      | [] => .error (.missingOperand id)
      | sel :: rest' =>
        match armOperands sel with
        | some (space, base, len) => .ok (.taArm space base len, rest')
        | none => .error (.noSuchTriple sel)
    | 0x11 =>
      match rest with
      | [] => .error (.missingOperand id)
      | b :: rest' => .ok (.taRxb b, rest')
    | 0x12 => .ok (.taTx Config.cmdBytes, rest)
    | 0x18 => .ok (.rxcIdle, rest)
    | 0x19 => .ok (.rxcHsok, rest)
    | 0x1A => .ok (.rxcHsbad, rest)
    | 0x1B => .ok (.rxcFrame, rest)
    | 0x1C => .ok (.rxcOvr, rest)
    | 0x1F => .ok (.rxc, rest)
    | _ => .error (.unassignedId id)

/-- One record of the link: its fixed number of bytes, classified by the table (R90, R99). -/
def decodeRecord (fmt : Format) (bytes : List Byte) : Except DecodeError (Instr × List Byte) :=
  if bytes.length < fmt.length then .error (.shortRecord fmt)
  else
    match classify fmt (bytes.take fmt.length) with
    | some cls => .ok (cls.instr (bytes.take fmt.length), bytes.drop fmt.length)
    | none => .error .notCommand

/-- The decoder: one instruction of the given format, and the bytes after it. -/
def decode (fmt : Format) (bytes : List Byte) : Except DecodeError (Instr × List Byte) :=
  match fmt with
  | .evt => decodeEvt bytes
  | .c9 => decodeRecord .c9 bytes
  | .d7 => decodeRecord .d7 bytes
  | .f84 => decodeRecord .f84 bytes

/-- The format of an instruction (the table's `format` column). -/
def Instr.format : Instr → Format
  | .cmdXscan => .c9
  | .descOk _ => .d7
  | .descBad _ => .d7
  | .frameSynced _ => .f84
  | .frameUnsynced _ => .f84
  | .reset | .start | .waits | .dpoll | .dclr | .dsync | .dcsum | .dang | .dcab | .dflip => .evt
  | .taArm _ _ _ | .taRxb _ | .taTx _ => .evt
  | .rxcIdle | .rxcHsok | .rxcHsbad | .rxcFrame | .rxcOvr | .rxc => .evt

/-- The encoder: the bytes of a well-formed instruction (R92 to R94, R100, R102; TA.ARM's selector is log entry 10). -/
def encode : Instr → List Byte
  | .reset => [0x00]
  | .start => [0x01]
  | .waits => [0x02]
  | .dpoll => [0x03]
  | .dclr => [0x04]
  | .dsync => [0x05]
  | .dcsum => [0x06]
  | .dang => [0x07]
  | .dcab => [0x08]
  | .dflip => [0x09]
  | .taArm space base _ => [0x10, armSelector space base]
  | .taRxb b => [0x11, b]
  | .taTx _ => [0x12]
  | .rxcIdle => [0x18]
  | .rxcHsok => [0x19]
  | .rxcHsbad => [0x1A]
  | .rxcFrame => [0x1B]
  | .rxcOvr => [0x1C]
  | .rxc => [0x1F]
  | .cmdXscan => Config.cmdBytes
  | .descOk d => d
  | .descBad d => d
  | .frameSynced f => f
  | .frameUnsynced f => f

/-- The low `n` bytes of a number, least significant first: bit 0 of the number is bit 0 of byte 0. -/
def bytesOfNat : Nat → Nat → List Byte
  | 0, _ => []
  | n + 1, w => BitVec.ofNat 8 w :: bytesOfNat n (w / 256)

/-- The format whose rows have this many bits: 72 (C9), 56 (D7), 672 (F84), an operation otherwise (log entry 18). -/
def formatOfBits (nbits : Nat) : Format :=
  if nbits = 72 then .c9 else if nbits = 56 then .d7 else if nbits = 672 then .f84 else .evt

/-- A table word as bytes: all of `w`'s `nbits` bits, and zeros above them up to the longest operation (2 bytes). -/
def wordBytes (nbits w : Nat) : List Byte :=
  bytesOfNat (max (nbits / 8) 2) (w % 2 ^ nbits)

/-- The instruction the decoder reads from a word of the opcode table. -/
def decodeTableWord (nbits w : Nat) : Option Instr :=
  match decode (formatOfBits nbits) (wordBytes nbits w) with
  | .ok (i, _) => some i
  | .error _ => none

end Sys2Proof
end

