-- ==== Sys2Proof/Machine/State.lean ====
section
/-! DEFINITION. The state of XRX (10_state.md R20), its enumerated registers with their codes, the observable events, the reasons a step can stop, and the state after reset (R39). -/

namespace Sys2Proof.Machine

/-- LINK (R23). The value 3 "is never produced by any rule" and has no constructor (U15, log entry 21). -/
inductive LinkState where
  | idle
  | awaiting
  | streaming
deriving DecidableEq, Repr

/-- TPH (R27), the phase of the task-side sequencer. Values 7 and 9..15 "are never produced" (U15, log entry 21). -/
inductive Phase where
  | tIdle
  | tWait
  | dPoll
  | dClr
  | dSync
  | dCsum
  | dAng
  | dFlip
deriving DecidableEq, Repr

/-- DSTAT (R31), the outcome of the most recent completed decode. -/
inductive DecodeStatus where
  | none
  | accepted
  | syncFail
  | csumFail
deriving DecidableEq, Repr

/-- A drop with the value recorded with it (60_exceptions.md R210; the value "is carried only by the trace event", R211). -/
inductive Drop where
  | hsMismatch (echo : Byte)
  | overrun (widx : BitVec 8)
  | syncFail (sync : Byte)
  | csumFail (acc : Byte) (ckrx : Byte)
deriving DecidableEq, Repr

/-- What a run shows (30_encoding.md R102): the line that ran, and the events `emit` appends. -/
inductive Event where
  | line (i : Instr)
  | tx (bytes : List Byte)
  | arm (space : Space) (base : BitVec 8) (len : BitVec 7)
  | pub (angle : BitVec 16)
  | drop (d : Drop)
  | lost (b : Byte)
deriving DecidableEq, Repr

/-- A piece of the schedule and of ENV's bytes: bytes of one format (R102 for `evt`, R90 for records; log entry 6). -/
structure Chunk where
  fmt   : Format
  bytes : List Byte
deriving DecidableEq, Repr

/-- One of the two byte memories: the bytes written since reset, by rising offset. An offset that is not listed holds no value (R21, R39; log entry 3). -/
abbrev Memory := List Host.Cell

/-- The state. The first group is the spec's (R20), the second the model's own. -/
structure State where
  /-- POOL (R21). -/
  pool       : Memory
  /-- DESC (R22). -/
  desc       : Memory
  /-- LINK (R23). -/
  link       : LinkState
  /-- READY, the Frame-Ready Signal (R24). -/
  ready      : Bool
  /-- WIDX, the write-side offset (R25). -/
  widx       : BitVec 8
  /-- RIDX, the read-side offset (R26). -/
  ridx       : BitVec 8
  /-- TPH (R27). -/
  tph        : Phase
  /-- RXA: a receive is armed (R28). -/
  rxa        : Bool
  /-- RXSP: its space (R28). -/
  rxsp       : Space
  /-- RXBASE: its first offset (R28). -/
  rxbase     : BitVec 8
  /-- RXLEN: its length (R28). -/
  rxlen      : BitVec 7
  /-- RXCNT: bytes landed so far (R28). -/
  rxcnt      : BitVec 7
  /-- RXC_PEND: the pending completion notification (R29). -/
  rxcPend    : Bool
  /-- PUB_ANGLE_Q6 (R30). -/
  pubAngleQ6 : BitVec 16
  /-- PUB_VALID (R30). -/
  pubValid   : Bool
  /-- DSTAT (R31). -/
  dstat      : DecodeStatus
  /-- CNT_ACC (R32); the five counters are below `2 ^ diagW` (log entry 22). -/
  cntAcc     : Nat
  /-- CNT_SYNC (R32). -/
  cntSync    : Nat
  /-- CNT_CSUM (R32). -/
  cntCsum    : Nat
  /-- CNT_OVR (R32). -/
  cntOvr     : Nat
  /-- CNT_HSBAD (R32). -/
  cntHsbad   : Nat
  /-- MODEL: the open parameters (R6), written by no step (log entry 12). -/
  cfg        : Config.Params
  /-- MODEL: the lines still to run, first one first (log entry 6). -/
  script     : List Chunk
  /-- MODEL: what the run has shown, oldest first (R8 `emit`, R102; log entry 11). -/
  trace      : List Event
  /-- MODEL: what TA.RXB overwrote under the decode in progress, newest first (R189; log entry 13). -/
  shadow     : List (Nat × Option Byte)
  /-- MODEL: the index of the next free value (log entry 5). -/
  freeIdx    : Nat
deriving DecidableEq, Repr

/-- The faults. -/
inductive Fault where
  /-- Raised by the decoder's reads and by the read of DESC[6], for an offset nothing has written since reset (U8: "`fault`s a read of it"). Safe: no run from reset reaches it (R41). -/
  | unwrittenRead (space : Space) (offset : Nat)
  /-- Raised by an access outside POOL or DESC, which no rule forms (R60, R72). Safe. -/
  | badOffset (space : Space) (offset : Nat)
deriving DecidableEq, Repr

/-- The refusals. -/
inductive Refusal where
  /-- An arm of `exec` with no meaning yet; none is left. Safe. -/
  | notModelled (mnemonic : String)
  /-- Raised by any operation whose `require` does not hold: "the step exists only in states where `c` holds" (R8, U9). Safe. -/
  | notEnabled (mnemonic : String)
  /-- Raised by TA.ARM while a receive is armed: "a model refuses it" (R121, U10). Safe. -/
  | armWhileArmed
  /-- Raised by DCAB: "A model must refuse `DCAB` by name" (R186, U1). Safe. -/
  | cabinDecodeReserved
  /-- Raised by the fetch when the scripted bytes are no instruction (R100, U15). Safe. -/
  | badEncoding (e : DecodeError)
deriving DecidableEq, Repr

/-- The state after reset (R39). PUB_ANGLE_Q6 and the fields of the unarmed receive, which R39 leaves unspecified, are
zero here (DESIGN CHOICE, log entries 1 and 2). -/
def State.reset : State :=
  { pool := [], desc := [], link := .idle, ready := false, widx := 0, ridx := 0, tph := .tIdle
    rxa := false, rxsp := .desc, rxbase := 0, rxlen := 0, rxcnt := 0, rxcPend := false
    pubAngleQ6 := 0, pubValid := false, dstat := .none
    cntAcc := 0, cntSync := 0, cntCsum := 0, cntOvr := 0, cntHsbad := 0
    cfg := Config.defaultParams, script := [], trace := [], shadow := [], freeIdx := 0 }

end Sys2Proof.Machine
end

