-- ==== Sys2Proof/Machine/Flags.lean ====
section
/-! DEFINITION. The flags of 10_state.md R36 (READY, RXC_PEND, RXA, PUB_VALID) and the diagnostics that operations update: the counters (R32, D30) and DSTAT (R31). XRX has no condition codes. -/

namespace Sys2Proof.Machine

/-- R32, R9: a counter adds 1 modulo `2^DIAG_W`. -/
def bump (cfg : Config.Params) (c : Nat) : Nat := (c + 1) % 2 ^ cfg.diagW

/-- READY <- 1 (R24: only RXC.FRAME). -/
def State.setReady (s : State) : State := { s with ready := true }

/-- READY <- 0 (R24: only DCLR). -/
def State.clearReady (s : State) : State := { s with ready := false }

/-- RXC_PEND <- 0 (R29: every RXC step). -/
def State.clearPend (s : State) : State := { s with rxcPend := false }

/-- RXA <- 0 ; RXC_PEND <- 1: the receive completed (R122). -/
def State.complete (s : State) : State := { s with rxa := false, rxcPend := true }

/-- CNT_ACC <- CNT_ACC + 1 ; DSTAT <- 1 (R185). -/
def State.countAccept (s : State) : State :=
  { s with cntAcc := bump s.cfg s.cntAcc, dstat := .accepted }

/-- The counter of a drop's class, and DSTAT for the two classes that set it (R210, R211). -/
def State.countDrop (s : State) : Drop → State
  | .hsMismatch _ => { s with cntHsbad := bump s.cfg s.cntHsbad }
  | .overrun _ => { s with cntOvr := bump s.cfg s.cntOvr }
  | .syncFail _ => { s with cntSync := bump s.cfg s.cntSync, dstat := .syncFail }
  | .csumFail _ _ => { s with cntCsum := bump s.cfg s.cntCsum, dstat := .csumFail }

end Sys2Proof.Machine
end

