-- ==== Sys2Proof/Machine/Operands.lean ====
section
/-! DEFINITION. The operand forms: the effective offsets of 20_memory.md R73, the field assembly of a frame (30_encoding.md R95 to R97), and the codes of the enumerated registers (10_state.md R23, R27, R28, R31). -/

namespace Sys2Proof.Machine

/-- R7: `hi4(b) = b[7:4]`. -/
def hi4 (b : Byte) : BitVec 4 := b.extractLsb' 4 4

/-- R7: `lo4(b) = b[3:0]`. -/
def lo4 (b : Byte) : BitVec 4 := b.extractLsb' 0 4

/-- R95, R183: `SYNC = (byte0 and 0xF0) or (byte1 >> 4)`. -/
def syncOf (b0 b1 : Byte) : Byte := (b0 &&& 0xF0#8) ||| (b1 >>> 4)

/-- R96, R184: `CKRX = ((byte1 and 0x0F) << 4) or (byte0 and 0x0F)`. -/
def ckrxOf (b0 b1 : Byte) : Byte := ((b1 &&& 0x0F#8) <<< 4) ||| (b0 &&& 0x0F#8)

/-- R97, R185: `zext_16(byte3) * 256 + zext_16(byte2)`. -/
def angleOf (b3 b2 : Byte) : BitVec 16 := b3.setWidth 16 * 256#16 + b2.setWidth 16

/-- R190(e): `84 − x`, on the two offsets 0 and 84 (log entry 20). -/
def flipOffset (x : BitVec 8) : BitVec 8 := 84#8 - x

/-- R73(a): the decoder reads at `RIDX + i`. -/
def decoderOffset (s : State) (i : Nat) : Nat := s.ridx.toNat + i

/-- R73(b), (c): the adapter writes the pool at `RXBASE + RXCNT` and the descriptor buffer at `RXCNT`. -/
def adapterOffset (s : State) : Nat :=
  match s.rxsp with
  | .pool => s.rxbase.toNat + s.rxcnt.toNat
  | .desc => s.rxcnt.toNat

/-- R60: the number of locations of a space. -/
def spaceLen : Space → Nat
  | .pool => Config.poolLen
  | .desc => Config.descLen

/-- R28: RXSP, 0 = DESC, 1 = POOL. -/
def spaceCode : Space → BitVec 1
  | .desc => 0
  | .pool => 1

/-- R23: LINK. -/
def LinkState.code : LinkState → BitVec 2
  | .idle => 0
  | .awaiting => 1
  | .streaming => 2

/-- R27: TPH. -/
def Phase.code : Phase → BitVec 4
  | .tIdle => 0
  | .tWait => 1
  | .dPoll => 2
  | .dClr => 3
  | .dSync => 4
  | .dCsum => 5
  | .dAng => 6
  | .dFlip => 8

/-- R31: DSTAT. -/
def DecodeStatus.code : DecodeStatus → BitVec 3
  | .none => 0
  | .accepted => 1
  | .syncFail => 3
  | .csumFail => 4

/-- R210: the drop codes. -/
def Drop.code : Drop → Nat
  | .hsMismatch _ => 1
  | .overrun _ => 2
  | .syncFail _ => 3
  | .csumFail _ _ => 4

end Sys2Proof.Machine
end

