-- ==== Sys2Proof/Machine/Ops.lean ====
section
/-! DEFINITION. The shared operations: memory, the trace, the two requests of the Transport Adapter (R121, R123), the landing of a byte (R122), the decoder's reads with their races (R189), `raise` (R211) and the selection of an RXC variant (R160). -/

namespace Sys2Proof.Machine

/-- What a step answers. -/
abbrev Result := Host.Outcome State Fault Refusal

/-- Go on from a next state; a fault or a refusal stops. -/
def andThen (r : Result) (f : State → Result) : Result :=
  match r with
  | .next s => f s
  | .fault e => .fault e
  | .refused e => .refused e

/-! ## Memory -/

/-- The byte at an offset, or no value (R21, R41, U8). -/
def Memory.read (m : Memory) (a : Nat) : Option Byte :=
  match m with
  | [] => none
  | (k, v) :: rest => if k = a then some v else Memory.read rest a

/-- Store one byte, keeping the offsets strictly rising (R64: "A write has no effect beyond the byte it stores"). -/
def Memory.write (m : Memory) (a : Nat) (b : Byte) : Memory :=
  match m with
  | [] => [(a, b)]
  | (k, v) :: rest =>
    if a < k then (a, b) :: (k, v) :: rest
    else if a = k then (a, b) :: rest
    else (k, v) :: Memory.write rest a b

/-- The canonical form: offsets strictly rising. No entry equals what an unlisted offset reads as, for that is no value. -/
abbrev Memory.wf (m : Memory) : Prop := m.Pairwise fun x y => x.1 < y.1

/-! ## The trace -/

/-- R8: `emit` "appends an observable event to the run's trace and changes no state". -/
def State.emit (s : State) (e : Event) : State := { s with trace := s.trace ++ [e] }

/-- The line an operation adds to the trace (R102). -/
def State.log (s : State) (i : Instr) : State := s.emit (.line i)

/-! ## Drops (R211) -/

/-- `raise`: count the drop, set DSTAT for a decode failure, emit DROP. It "saves no state, changes no mode, vectors
nowhere and is not sticky: the raising rule continues with its next line", so there is no entry and nothing to return from (R211, R219, R220). -/
def State.raiseDrop (s : State) (d : Drop) : State := (s.countDrop d).emit (.drop d)

/-! ## The Transport Adapter -/

/-- TA.ARM as a request (R121): `require RXA = 0`, then remember the receive. -/
def armReceive (space : Space) (base : BitVec 8) (len : BitVec 7) (s : State) : Result :=
  if s.rxa then .refused .armWhileArmed
  else
    .next (({ s with rxa := true, rxsp := space, rxbase := base, rxlen := len, rxcnt := 0 } : State).emit
      (.arm space base len))

/-- TA.TX as a request (R123): the bytes go out; "It changes no state of XRX". -/
def sendBytes (bytes : List Byte) (s : State) : State := s.emit (.tx bytes)

/-- R246: the phases in which the decoder still has bytes to read. -/
def Phase.reads : Phase → Bool
  | .dSync => true
  | .dCsum => true
  | .dAng => true
  | .tIdle => false
  | .tWait => false
  | .dPoll => false
  | .dClr => false
  | .dFlip => false

/-- R189, R246: a pool write at this offset falls on the buffer under decode. -/
def State.tears (s : State) (a : Nat) : Bool :=
  s.tph.reads && decide (s.ridx.toNat ≤ a) && decide (a < s.ridx.toNat + Config.frameLen)

/-- MemWrite of the adapter into the pool: the byte, and, under a decode, what it overwrote (R122, R189). -/
def writePool (a : Nat) (b : Byte) (s : State) : Result :=
  if a < Config.poolLen then
    .next { s with
      pool := Memory.write s.pool a b
      shadow := if s.tears a then (a, Memory.read s.pool a) :: s.shadow else s.shadow }
  else .fault (.badOffset .pool a)

/-- DescWrite of the adapter (R122). -/
def writeDesc (a : Nat) (b : Byte) (s : State) : Result :=
  if a < Config.descLen then .next { s with desc := Memory.write s.desc a b }
  else .fault (.badOffset .desc a)

/-- RXCNT <- RXCNT + 1, and the completion when it reaches RXLEN (R122). -/
def advanceReceive (s : State) : State :=
  if s.rxcnt + 1 = s.rxlen then ({ s with rxcnt := s.rxcnt + 1 } : State).complete
  else { s with rxcnt := s.rxcnt + 1 }

/-- One received byte lands, or is lost where nothing is armed (R122, R124). -/
def landByte (b : Byte) (s : State) : Result :=
  if s.rxa then
    andThen
      (match s.rxsp with
        | .pool => writePool (adapterOffset s) b s
        | .desc => writeDesc (adapterOffset s) b s)
      fun t => .next (advanceReceive t)
  else .next (s.emit (.lost b))

/-! ## The decoder's reads -/

/-- The values a read of the pool may return: the byte there, then what TA.RXB overwrote there under this decode (R189). -/
def State.candidates (s : State) (a : Nat) : List (Option Byte) :=
  Memory.read s.pool a :: (s.shadow.filter fun e => e.1 == a).map (·.2)

/-- One read of the pool. A raced byte is any of its candidates, chosen anew for each read by a free value (R189: "independently per read"; log entry 13). -/
def State.readPool (s : State) (a : Nat) : Option Byte × State :=
  match s.candidates a with
  | [] => (none, s)
  | [only] => (only, s)
  | first :: second :: more =>
    ((first :: second :: more).getD (Config.racePick s.freeIdx % (more.length + 2)) none,
      { s with freeIdx := s.freeIdx + 1 })

/-- `B(i) = MemRead(RIDX + i, 1)` (43_frame_decoder.md), handed on with the state after the read. -/
def withFrameByte (i : Nat) (s : State) (k : Byte → State → Result) : Result :=
  if decoderOffset s i < Config.poolLen then
    match s.readPool (decoderOffset s i) with
    | (some b, t) => k b t
    | (none, _) => .fault (.unwrittenRead .pool (decoderOffset s i))
  else .fault (.badOffset .pool (decoderOffset s i))

/-- `for i = … do ACC <- ACC xor B(i)`, ascending, over `n` bytes from offset `i` (R184, D32). -/
def withXor (n i : Nat) (acc : Byte) (s : State) (k : Byte → State → Result) : Result :=
  match n with
  | 0 => k acc s
  | n + 1 => withFrameByte i s fun b t => withXor n (i + 1) (acc ^^^ b) t k

/-- DescRead(6) (R73(c)). -/
def withEcho (s : State) (k : Byte → Result) : Result :=
  match Memory.read s.desc Config.echoOff with
  | some b => k b
  | none => .fault (.unwrittenRead .desc Config.echoOff)

end Sys2Proof.Machine
end

