-- ==== Sys2Proof/Machine/Adapter.lean ====
section
/-! DEFINITION. The Transport Adapter's operations (40_transport_adapter.md): TA.ARM, TA.RXB, TA.TX. -/

namespace Sys2Proof.Machine

/-- TA.ARM(space, base, len) (R121), as a request of its own (log entry 10). -/
def execTaArm (space : Space) (base : BitVec 8) (len : BitVec 7) (s : State) : Result :=
  armReceive space base len s

/-- TA.RXB(b) (R122, R124). -/
def execTaRxb (b : Byte) (s : State) : Result := landByte b (s.log (.taRxb b))

/-- TA.TX(bytes) (R123), as a request of its own (log entry 10). -/
def execTaTx (bytes : List Byte) (s : State) : Result := .next (sendBytes bytes s)

end Sys2Proof.Machine
end

