-- ==== Sys2Proof/Machine/Decoder.lean ====
section
/-! DEFINITION. The Frame Decoder (43_frame_decoder.md): DPOLL, DCLR, DSYNC, DCSUM, DANG, DCAB, DFLIP. -/

namespace Sys2Proof.Machine

/-- DPOLL (R181). -/
def execDpoll (s : State) : Result :=
  if s.tph = .dPoll then
    if s.ready then .next { s.log .dpoll with tph := .dClr }
    else .next (s.log .dpoll)
  else .refused (.notEnabled "DPOLL")

/-- DCLR (R182). The decode opens here, with nothing overwritten under it yet. -/
def execDclr (s : State) : Result :=
  if s.tph = .dClr then .next { (s.log .dclr).clearReady with tph := .dSync, shadow := [] }
  else .refused (.notEnabled "DCLR")

/-- DSYNC (R183). -/
def execDsync (s : State) : Result :=
  if s.tph = .dSync then
    withFrameByte 0 (s.log .dsync) fun b0 t =>
    withFrameByte 1 t fun b1 u =>
      if syncOf b0 b1 = Config.syncValue then .next { u with tph := .dCsum }
      else .next { u.raiseDrop (.syncFail (syncOf b0 b1)) with tph := .dFlip }
  else .refused (.notEnabled "DSYNC")

/-- DCSUM (R184). -/
def execDcsum (s : State) : Result :=
  if s.tph = .dCsum then
    withFrameByte 0 (s.log .dcsum) fun b0 t =>
    withFrameByte 1 t fun b1 u =>
    withXor 82 2 0x00 u fun acc v =>
      if acc = ckrxOf b0 b1 then .next { v with tph := .dAng }
      else .next { v.raiseDrop (.csumFail acc (ckrxOf b0 b1)) with tph := .dFlip }
  else .refused (.notEnabled "DCSUM")

/-- DANG (R185). -/
def execDang (s : State) : Result :=
  if s.tph = .dAng then
    withFrameByte 3 (s.log .dang) fun b3 t =>
    withFrameByte 2 t fun b2 u =>
      .next { ({ u with pubAngleQ6 := angleOf b3 b2, pubValid := true } : State).countAccept.emit
          (.pub (angleOf b3 b2)) with tph := .dFlip }
  else .refused (.notEnabled "DANG")

/-- DCAB (R186): "A model must refuse `DCAB` by name and must not give the cabins a layout." -/
def execDcab (_s : State) : Result := .refused .cabinDecodeReserved

/-- DFLIP (R187). The decode closes here. -/
def execDflip (s : State) : Result :=
  if s.tph = .dFlip then
    .next { s.log .dflip with ridx := flipOffset s.ridx, tph := .dPoll, shadow := [] }
  else .refused (.notEnabled "DFLIP")

/-! ## The decode as a function (R188) -/

/-- What `Decode` returns. -/
inductive Verdict where
  | syncFail
  | csumFail
  | accept (angle : BitVec 16)
deriving DecidableEq, Repr

/-- R188 `Decode(f)`, for a frame given by its byte at each offset. -/
def decodeFrame (f : Nat → Byte) : Verdict :=
  if syncOf (f 0) (f 1) ≠ Config.syncValue then .syncFail
  else if (List.range' 2 82).foldl (fun acc i => acc ^^^ f i) 0x00 ≠ ckrxOf (f 0) (f 1) then .csumFail
  else .accept (angleOf (f 3) (f 2))

end Sys2Proof.Machine
end

