-- ==== Sys2Proof/Machine/Link.lean ====
section
/-! DEFINITION. The Link State Machine (41_link_handshake.md): START, WAITS, RXC.IDLE, RXC.HSOK, RXC.HSBAD. -/

namespace Sys2Proof.Machine

/-- START (R141): send the command, arm the descriptor receive, LINK <- 1, TPH <- T_WAIT, in one step. -/
def execStart (s : State) : Result :=
  if s.tph = .tIdle then
    andThen (armReceive .desc 0 7 (sendBytes Config.cmdBytes (s.log .start)))
      fun t => .next { t with link := .awaiting, tph := .tWait }
  else .refused (.notEnabled "START")

/-- WAITS (R142). -/
def execWaits (s : State) : Result :=
  if s.tph = .tWait then
    if s.link = .streaming then .next { s.log .waits with tph := .dPoll }
    else .next (s.log .waits)
  else .refused (.notEnabled "WAITS")

/-- RXC.IDLE (R143): clear the notification, nothing else. -/
def execRxcIdle (s : State) : Result :=
  if s.rxcPend ∧ s.link = .idle then .next (s.log .rxcIdle).clearPend
  else .refused (.notEnabled "RXC.IDLE")

/-- RXC.HSOK (R144): the descriptor matches; stream, and arm the first frame at WIDX. -/
def execRxcHsok (s : State) : Result :=
  if s.rxcPend ∧ s.link = .awaiting then
    withEcho s fun echo =>
      if echo = Config.echoValue then
        armReceive .pool s.widx 84 { (s.log .rxcHsok).clearPend with link := .streaming }
      else .refused (.notEnabled "RXC.HSOK")
  else .refused (.notEnabled "RXC.HSOK")

/-- RXC.HSBAD (R145): the descriptor does not match; drop it, arm nothing, send nothing. -/
def execRxcHsbad (s : State) : Result :=
  if s.rxcPend ∧ s.link = .awaiting then
    withEcho s fun echo =>
      if echo = Config.echoValue then .refused (.notEnabled "RXC.HSBAD")
      else .next ((s.log .rxcHsbad).clearPend.raiseDrop (.hsMismatch echo))
  else .refused (.notEnabled "RXC.HSBAD")

end Sys2Proof.Machine
end

