-- ==== Sys2Proof/Machine/Reception.lean ====
section
/-! DEFINITION. The Reception Pipeline (42_reception_pipeline.md): RXC.FRAME, RXC.OVR, and the dispatch RXC. -/

namespace Sys2Proof.Machine

/-- RXC.FRAME (R161): hand the frame over, flip WIDX, arm the other buffer. -/
def execRxcFrame (s : State) : Result :=
  if s.rxcPend ∧ s.link = .streaming ∧ s.ready = false then
    armReceive .pool (flipOffset s.widx) 84
      { (s.log .rxcFrame).clearPend.setReady with widx := flipOffset s.widx }
  else .refused (.notEnabled "RXC.FRAME")

/-- RXC.OVR (R162): drop the new frame; OVR_POLICY says whether the same buffer is armed again. -/
def execRxcOvr (s : State) : Result :=
  if s.rxcPend ∧ s.link = .streaming ∧ s.ready = true then
    match s.cfg.ovrPolicy with
    | .halt => .next ((s.log .rxcOvr).clearPend.raiseDrop (.overrun s.widx))
    | .rearmSame => armReceive .pool s.widx 84 ((s.log .rxcOvr).clearPend.raiseDrop (.overrun s.widx))
  else .refused (.notEnabled "RXC.OVR")

/-- RXC (R160): the one variant that LINK, then DESC[6] or READY, selects. It is the service of the completion
interrupt: entry saves nothing (R219) and the return is the end of the step (R220). -/
def execRxc (s : State) : Result :=
  if s.rxcPend then
    match s.link with
    | .idle => execRxcIdle s
    | .awaiting =>
      withEcho s fun echo => if echo = Config.echoValue then execRxcHsok s else execRxcHsbad s
    | .streaming => if s.ready then execRxcOvr s else execRxcFrame s
  else .refused (.notEnabled "RXC")

end Sys2Proof.Machine
end

