-- ==== Sys2Proof/Machine/Script.lean ====
section
/-! DEFINITION. The script pseudo-operations (30_encoding.md R103): RX, RXFRAME, FRAME, DECODE, SETTLE, as compositions of single operations; and the operation the state itself selects (R100). -/

namespace Sys2Proof.Machine

/-- `RX b0 b1 … bn`: one TA.RXB step for each byte, in order (R102). -/
def landAll (bytes : List Byte) (s : State) : Result :=
  match bytes with
  | [] => .next s
  | b :: rest => andThen (execTaRxb b s) fun t => landAll rest t

/-- Serve the pending notification, if there is one (R103). -/
def serveIfPending (s : State) : Result := if s.rxcPend then execRxc s else .next s

/-- One enabled operation of the task in phase `p`, none in another phase. -/
def whenPhase (p : Phase) (f : State → Result) (s : State) : Result := if s.tph = p then f s else .next s

/-- `DECODE` (R103): DPOLL, and if it found READY = 1: DCLR, DSYNC, DCSUM if enabled, DANG if enabled, DFLIP. Nothing
where the task is not at its poll (log entry 9). -/
def decodeOnce (s : State) : Result :=
  if s.tph = .dPoll then
    andThen (execDpoll s) fun t1 =>
    andThen (whenPhase .dClr execDclr t1) fun t2 =>
    andThen (whenPhase .dSync execDsync t2) fun t3 =>
    andThen (whenPhase .dCsum execDcsum t3) fun t4 =>
    andThen (whenPhase .dAng execDang t4) fun t5 =>
    whenPhase .dFlip execDflip t5
  else .next s

/-- The operation selected by the state when nothing is scripted (R100 "selected when"; RP before TASK, R218(a); log
entry 7). None in T_IDLE: START needs the host's pulse. -/
def State.selected (s : State) : Option Instr :=
  if s.rxcPend then some .rxc
  else
    match s.tph with
    | .tIdle => none
    | .tWait => some .waits
    | .dPoll => some .dpoll
    | .dClr => some .dclr
    | .dSync => some .dsync
    | .dCsum => some .dcsum
    | .dAng => some .dang
    | .dFlip => some .dflip

/-- R103 `SETTLE` stops here: no notification is pending and the next task step "would change nothing". -/
def State.settled (s : State) : Bool :=
  !s.rxcPend &&
    match s.tph with
    | .tIdle => true
    | .tWait => decide (s.link ≠ .streaming)
    | .dPoll => !s.ready
    | .dClr => false
    | .dSync => false
    | .dCsum => false
    | .dAng => false
    | .dFlip => false

/-- The task operation of the state's phase; nothing in T_IDLE. -/
def taskStep (s : State) : Result :=
  match s.tph with
  | .tIdle => .next s
  | .tWait => execWaits s
  | .dPoll => execDpoll s
  | .dClr => execDclr s
  | .dSync => execDsync s
  | .dCsum => execDcsum s
  | .dAng => execDang s
  | .dFlip => execDflip s

/-- `SETTLE` with a bound on the task steps. -/
def settleTask (fuel : Nat) (s : State) : Result :=
  match fuel with
  | 0 => .next s
  | n + 1 => if s.settled then .next s else andThen (taskStep s) fun t => settleTask n t

/-- `SETTLE` (R103): serve RXC if pending, then run TASK steps until the next would change nothing. Sixteen steps are
enough: a decode in progress and the one frame that may follow it. -/
def settle (s : State) : Result := andThen (serveIfPending s) fun t => settleTask 16 t

/-- R103 `FRAME(q, cab)`: the in-sync, checksum-correct frame with angle q and the 80 cabin bytes. -/
def frameBytes (q : BitVec 16) (cab : List Byte) : List Byte :=
  let lo := q.setWidth 8
  let hi := (q >>> 8).setWidth 8
  let ck := cab.foldl (· ^^^ ·) (lo ^^^ hi)
  [0xA0#8 ||| (ck &&& 0x0F#8), 0x50#8 ||| (ck >>> 4), lo, hi] ++ cab

end Sys2Proof.Machine
end

