-- ==== Sys2Proof/Machine/Records.lean ====
section
/-! DEFINITION. The record classes of the link (30_encoding.md R92 to R94, R99): what happens when XRX sends the command, or when the sensor sends a descriptor or a frame (log entry 9). -/

namespace Sys2Proof.Machine

/-- The seven bytes land and the completion, if they made one, is served (R103 `DESC`). DESIGN CHOICE (log entry 9): it is
served after the last byte of the row, so bytes of the row that arrive with nothing armed are lost (R124). -/
def receiveDescriptor (d : List Byte) (s : State) : Result :=
  andThen (landAll d s) fun t => serveIfPending t

/-- The 84 bytes land, the completion, if they made one, is served, and the task decodes once if it is at its poll
(R103 `RXFRAME` then `DECODE`). DESIGN CHOICE (log entry 9): the completion is served after the row's 84th byte. So where the
receive already holds k bytes (RXCNT = k) it completes before the row ends, the row's last k bytes find nothing armed and are lost
(R124), and the next row starts with an empty receive; such a row breaks P2 (R247), and the lasting misalignment of R249 is a
schedule of single bytes. -/
def receiveFrame (f : List Byte) (s : State) : Result :=
  andThen (landAll f s) fun t => andThen (serveIfPending t) fun u => decodeOnce u

/-- CMD_XSCAN (R92): "XRX only sends it, byte 0 first; it never receives or parses a `C9` record". -/
def execCmdXscan (s : State) : Result := .next (sendBytes Config.cmdBytes s)

/-- DESC_OK (R93, R144). -/
def execDescOk (d : List Byte) (s : State) : Result := receiveDescriptor d s

/-- DESC_BAD (R93, R145). -/
def execDescBad (d : List Byte) (s : State) : Result := receiveDescriptor d s

/-- FRAME_SYNCED (R94, R188). -/
def execFrameSynced (f : List Byte) (s : State) : Result := receiveFrame f s

/-- FRAME_UNSYNCED (R94, R183). -/
def execFrameUnsynced (f : List Byte) (s : State) : Result := receiveFrame f s

end Sys2Proof.Machine
end

