-- ==== Sys2Proof/Machine/ResetOp.lean ====
section
/-! DEFINITION. RESET (70_reset_and_hazards.md R240). -/

namespace Sys2Proof.Machine

/-- RESET (R240): enabled in every state. What R39 leaves unspecified is a free value; a byte of POOL or DESC "that
has not been written since reset holds no value" (R21), so both are empty after it (log entry 4). -/
def execReset (s : State) : Result :=
  .next { s.log .reset with
    link := .idle, ready := false, widx := 0, ridx := 0, tph := .tIdle
    rxa := false, rxcPend := false
    pubValid := false, dstat := .none
    cntAcc := 0, cntSync := 0, cntCsum := 0, cntOvr := 0, cntHsbad := 0
    pool := [], desc := []
    pubAngleQ6 := Config.freeAngle s.freeIdx
    rxsp := if Config.freeBit s.freeIdx then .pool else .desc
    rxbase := Config.freeByte s.freeIdx
    rxlen := Config.freeCount s.freeIdx
    rxcnt := Config.freeCount (s.freeIdx + 1)
    shadow := [], freeIdx := s.freeIdx + 2 }

end Sys2Proof.Machine
end

