-- ==== Sys2Proof/Machine/Dispatch.lean ====
section
/-! DEFINITION. The dispatch: one arm for each constructor of `Instr`, each one direct call of that instruction's meaning. -/

namespace Sys2Proof.Machine

def exec (i : Instr) (s : State) : Host.Outcome State Fault Refusal :=
  match i with
  | .reset => Sys2Proof.Machine.execReset s
  | .start => Sys2Proof.Machine.execStart s
  | .waits => Sys2Proof.Machine.execWaits s
  | .dpoll => Sys2Proof.Machine.execDpoll s
  | .dclr => Sys2Proof.Machine.execDclr s
  | .dsync => Sys2Proof.Machine.execDsync s
  | .dcsum => Sys2Proof.Machine.execDcsum s
  | .dang => Sys2Proof.Machine.execDang s
  | .dcab => Sys2Proof.Machine.execDcab s
  | .dflip => Sys2Proof.Machine.execDflip s
  | .taArm space base len => Sys2Proof.Machine.execTaArm space base len s
  | .taRxb b => Sys2Proof.Machine.execTaRxb b s
  | .taTx bytes => Sys2Proof.Machine.execTaTx bytes s
  | .rxcIdle => Sys2Proof.Machine.execRxcIdle s
  | .rxcHsok => Sys2Proof.Machine.execRxcHsok s
  | .rxcHsbad => Sys2Proof.Machine.execRxcHsbad s
  | .rxcFrame => Sys2Proof.Machine.execRxcFrame s
  | .rxcOvr => Sys2Proof.Machine.execRxcOvr s
  | .rxc => Sys2Proof.Machine.execRxc s
  | .cmdXscan => Sys2Proof.Machine.execCmdXscan s
  | .descOk d => Sys2Proof.Machine.execDescOk d s
  | .descBad d => Sys2Proof.Machine.execDescBad d s
  | .frameSynced f => Sys2Proof.Machine.execFrameSynced f s
  | .frameUnsynced f => Sys2Proof.Machine.execFrameUnsynced f s

end Sys2Proof.Machine
end

