-- ==== Sys2Proof/Machine/Fetch.lean ====
section
/-! DEFINITION. Taking the next line of the script (log entry 6), and placing a line as the next one with the state that selects it (log entry 19). -/

namespace Sys2Proof.Machine

/-- The next line: the format and bytes at the head of the script and the chunks after them; empty chunks are passed over. -/
def nextLine : List Chunk → Option (Format × List Byte × List Chunk)
  | [] => none
  | c :: rest =>
    match c.bytes with
    | [] => nextLine rest
    | b :: bs => some (c.fmt, b :: bs, rest)

/-- The script after a line: what is left of its chunk, then the other chunks. -/
def pushBack (fmt : Format) (bytes : List Byte) (rest : List Chunk) : List Chunk :=
  match bytes with
  | [] => rest
  | b :: bs => { fmt := fmt, bytes := b :: bs } :: rest

/-- A memory with the bytes of one buffer that nothing has written set to 0, the others as they are: the decoder reads only a
buffer a whole frame has landed in (R41; log entry 19). -/
def Memory.landed (m : Memory) (base : Nat) : Memory :=
  m.filter (fun c => decide (c.1 < base)) ++
    ((List.range Config.frameLen).map fun k => (base + k, (Memory.read m (base + k)).getD 0x00)) ++
    m.filter fun c => decide (base + Config.frameLen ≤ c.1)

/-- The state that selects an operation: the "selected when" column of R100. A state that already selects it is unchanged.
The three tests of a decode have, besides, a frame to read (R41). -/
def State.selecting (s : State) : Instr → State
  | .reset => s
  | .start => { s with tph := .tIdle }
  | .waits => { s with tph := .tWait }
  | .dpoll => { s with tph := .dPoll }
  | .dclr => { s with tph := .dClr }
  | .dsync => { s with tph := .dSync, pool := Memory.landed s.pool s.ridx.toNat }
  | .dcsum => { s with tph := .dCsum, pool := Memory.landed s.pool s.ridx.toNat }
  | .dang => { s with tph := .dAng, pool := Memory.landed s.pool s.ridx.toNat }
  | .dcab => s
  | .dflip => { s with tph := .dFlip }
  | .taArm _ _ _ => s
  | .taRxb _ => s
  | .taTx _ => s
  | .rxcIdle => { s with rxcPend := true, link := .idle }
  | .rxcHsok =>
    { s with rxcPend := true, link := .awaiting, desc := Memory.write s.desc Config.echoOff Config.echoValue }
  | .rxcHsbad =>
    { s with
      rxcPend := true, link := .awaiting
      desc :=
        match Memory.read s.desc Config.echoOff with
        | some b => if b = Config.echoValue then Memory.write s.desc Config.echoOff 0x00 else s.desc
        | none => Memory.write s.desc Config.echoOff 0x00 }
  | .rxcFrame => { s with rxcPend := true, link := .streaming, ready := false }
  | .rxcOvr => { s with rxcPend := true, link := .streaming, ready := true }
  | .rxc => { s with rxcPend := true }
  | .cmdXscan => s
  | .descOk _ => s
  | .descBad _ => s
  | .frameSynced _ => s
  | .frameUnsynced _ => s

/-- A word of the opcode table as the whole script, with the state that selects its operation. Bytes that are no
instruction are placed as they stand. -/
def placeWord (s : State) (nbits w : Nat) : State :=
  match decode (formatOfBits nbits) (wordBytes nbits w) with
  | .ok (i, _) => { s.selecting i with script := [{ fmt := i.format, bytes := encode i }] }
  | .error _ => { s with script := [{ fmt := formatOfBits nbits, bytes := wordBytes nbits w }] }

end Sys2Proof.Machine
end

