-- ==== Sys2Proof/Machine/Step.lean ====
section
/-! DEFINITION. One step of the machine: the next line of the script, or, where none is scripted, the operation the state selects. -/

namespace Sys2Proof.Machine

/-- One step (R10: "Each step of each agent is one atomic transition"). -/
def step (s : State) : Host.Outcome State Fault Refusal :=
  match nextLine s.script with
  | some (fmt, bytes, rest) =>
    match decode fmt bytes with
    | .ok (i, left) => exec i { s with script := pushBack fmt left rest }
    | .error e => .refused (.badEncoding e)
  | none =>
    match s.selected with
    | some i => exec i s
    | none => .next s

/-- The state with a word of the opcode table as the next line (log entries 6 and 19). -/
def State.withFetchWord (s : State) (nbits w : Nat) : State := placeWord s nbits w

end Sys2Proof.Machine
end

