-- ==== Sys2Proof/Machine/Ports.lean ====
section
/-! DEFINITION. What the outside sees: the views of PUB_ANGLE_Q6 (10_state.md R30, 43_frame_decoder.md R191) and the output ports (R38). None is state. -/

namespace Sys2Proof.Machine

/-- R30: `ANGLE15 = PUB_ANGLE_Q6[14:0]`. -/
def State.angle15 (s : State) : BitVec 15 := s.pubAngleQ6.extractLsb' 0 15

/-- R30: `S_FLAG = PUB_ANGLE_Q6[15]`. -/
def State.sFlag (s : State) : BitVec 1 := s.pubAngleQ6.extractLsb' 15 1

/-- R30: `ANGLE_DEG_INT = PUB_ANGLE_Q6[15:6]`. -/
def State.angleDegInt (s : State) : BitVec 10 := s.pubAngleQ6.extractLsb' 6 10

/-- R30: `ANGLE_DEG_FRAC = PUB_ANGLE_Q6[5:0]`. -/
def State.angleDegFrac (s : State) : BitVec 6 := s.pubAngleQ6.extractLsb' 0 6

/-- R191: the angle in degrees, "`PUB_ANGLE_Q6 / 64`, an exact rational". -/
def degrees (q : BitVec 16) : Rat := (q.toNat : Rat) / 64

/-- R30: the host's read of the angle. "While `PUB_VALID = 0`, `PUB_ANGLE_Q6` holds no value and must not be read." -/
def State.publishedAngle (s : State) : Option (BitVec 16) := if s.pubValid then some s.pubAngleQ6 else none

/-- The level outputs of R38. The counters are `DIAG_W` bits wide. -/
structure Outputs where
  linkState  : BitVec 2
  frameReady : Bool
  angleQ6    : BitVec 16
  angleValid : Bool
  dstat      : BitVec 3
  cntAcc     : Nat
  cntSync    : Nat
  cntCsum    : Nat
  cntOvr     : Nat
  cntHsbad   : Nat
deriving DecidableEq, Repr

/-- R38: the level outputs of a state. -/
def State.outputs (s : State) : Outputs :=
  { linkState := s.link.code, frameReady := s.ready, angleQ6 := s.pubAngleQ6, angleValid := s.pubValid
    dstat := s.dstat.code, cntAcc := s.cntAcc, cntSync := s.cntSync, cntCsum := s.cntCsum
    cntOvr := s.cntOvr, cntHsbad := s.cntHsbad }

/-- The events one step added to the trace. -/
def newEvents (before after : State) : List Event := after.trace.drop before.trace.length

/-- R38 `angle_pub`: a pulse in the step in which DANG writes PUB_ANGLE_Q6 (log entry 17). -/
def anglePub (before after : State) : Bool :=
  (newEvents before after).any fun e => match e with
    | .pub _ => true
    | .line _ => false
    | .tx _ => false
    | .arm _ _ _ => false
    | .drop _ => false
    | .lost _ => false

/-- R38 `ta_arm` with its space, base and length: the receives one step asks for (log entry 17). -/
def taArms (before after : State) : List (Space × BitVec 8 × BitVec 7) :=
  (newEvents before after).filterMap fun e => match e with
    | .arm space base len => some (space, base, len)
    | .line _ => none
    | .tx _ => none
    | .pub _ => none
    | .drop _ => none
    | .lost _ => none

/-- R38 `ta_tx_data`: the bytes one step sends, byte 0 first (log entry 17). -/
def taTxData (before after : State) : List Byte :=
  ((newEvents before after).map fun e => match e with
    | .tx bytes => bytes
    | .line _ => []
    | .arm _ _ _ => []
    | .pub _ => []
    | .drop _ => []
    | .lost _ => []).flatten

end Sys2Proof.Machine
end

