-- ==== Sys2Proof/Safety.lean ====
section
/-! DEFINITION. The terms claims are stated in: when an operation is enabled (30_encoding.md R100), which lines a schedule may hold, the invariants of 10_state.md R40, R41 and 42_reception_pipeline.md R163, the premises and stalls of 70_reset_and_hazards.md, and running several operations in a row. -/

namespace Sys2Proof.Safety

open Sys2Proof.Machine

/-! ## Operations and schedules -/

/-- R100: TA.ARM and TA.TX are "never a step of its own", and the command leaves XRX only inside START (R92); the model can run
the three on their own (log entry 10), and a claim about runs of XRX rules them out. -/
def ownStep : Instr → Bool
  | .taArm _ _ _ => false
  | .taTx _ => false
  | .cmdXscan => false
  | .reset | .start | .waits | .dpoll | .dclr | .dsync | .dcsum | .dang | .dcab | .dflip => true
  | .taRxb _ => true
  | .rxcIdle | .rxcHsok | .rxcHsbad | .rxcFrame | .rxcOvr | .rxc => true
  | .descOk _ | .descBad _ | .frameSynced _ | .frameUnsynced _ => true

/-- The record rows that the sensor sends: each is a whole schedule of single operations (log entry 9). -/
def isRecord : Instr → Bool
  | .descOk _ | .descBad _ | .frameSynced _ | .frameUnsynced _ => true
  | .taArm _ _ _ | .taTx _ | .taRxb _ | .cmdXscan => false
  | .reset | .start | .waits | .dpoll | .dclr | .dsync | .dcsum | .dang | .dcab | .dflip => false
  | .rxcIdle | .rxcHsok | .rxcHsbad | .rxcFrame | .rxcOvr | .rxc => false

/-- The operations that may serve a completion (R160). -/
def servesCompletion : Instr → Bool
  | .rxcIdle | .rxcHsok | .rxcHsbad | .rxcFrame | .rxcOvr | .rxc => true
  | .descOk _ | .descBad _ | .frameSynced _ | .frameUnsynced _ => true
  | .taArm _ _ _ | .taTx _ | .taRxb _ | .cmdXscan => false
  | .reset | .start | .waits | .dpoll | .dclr | .dsync | .dcsum | .dang | .dcab | .dflip => false

/-- The bytes ENV supplies in one operation: the received byte of TA.RXB (R122), or the record the sensor sends (R93, R94). -/
def received : Instr → List Byte
  | .taRxb b => [b]
  | .descOk d => d
  | .descBad d => d
  | .frameSynced f => f
  | .frameUnsynced f => f
  | .taArm _ _ _ | .taTx _ | .cmdXscan => []
  | .reset | .start | .waits | .dpoll | .dclr | .dsync | .dcsum | .dang | .dcab | .dflip => []
  | .rxcIdle | .rxcHsok | .rxcHsbad | .rxcFrame | .rxcOvr | .rxc => []

/-- The next scripted line, if there is one that decodes, is a step of its own. -/
def ScheduleOk (s : State) : Prop :=
  ∀ fmt bytes rest i left, nextLine s.script = some (fmt, bytes, rest) → decode fmt bytes = .ok (i, left) → ownStep i = true

/-- The "selected when" column of R100, and R121's `require` for TA.ARM. DCAB is never selected. A received byte, a sent
string and a record can always happen. -/
def enabled (s : State) : Instr → Bool
  | .reset => true
  | .start => decide (s.tph = .tIdle)
  | .waits => decide (s.tph = .tWait)
  | .dpoll => decide (s.tph = .dPoll)
  | .dclr => decide (s.tph = .dClr)
  | .dsync => decide (s.tph = .dSync)
  | .dcsum => decide (s.tph = .dCsum)
  | .dang => decide (s.tph = .dAng)
  | .dcab => false
  | .dflip => decide (s.tph = .dFlip)
  | .taArm _ _ _ => !s.rxa
  | .taRxb _ => true
  | .taTx _ => true
  | .rxcIdle => s.rxcPend && decide (s.link = .idle)
  | .rxcHsok => s.rxcPend && decide (s.link = .awaiting) && decide (Memory.read s.desc 6 = some 0x82)
  | .rxcHsbad => s.rxcPend && decide (s.link = .awaiting) && decide (Memory.read s.desc 6 ≠ some 0x82)
  | .rxcFrame => s.rxcPend && decide (s.link = .streaming) && !s.ready
  | .rxcOvr => s.rxcPend && decide (s.link = .streaming) && s.ready
  | .rxc => s.rxcPend
  | .cmdXscan => true
  | .descOk _ => true
  | .descBad _ => true
  | .frameSynced _ => true
  | .frameUnsynced _ => true

/-- Several operations in a row. -/
def runInstrs (is : List Instr) (s : State) : Result :=
  match is with
  | [] => .next s
  | i :: rest => andThen (exec i s) fun t => runInstrs rest t

/-- A condition on a state and the operation it runs, at every operation of a run. -/
def Along (P : State → Instr → Prop) (is : List Instr) (s : State) : Prop :=
  match is with
  | [] => True
  | i :: rest => P s i ∧ ∀ t, exec i s = .next t → Along P rest t

/-! ## Invariants -/

/-- R163: a decode is open, that is `TPH ∈ {D_SYNC, D_CSUM, D_ANG, D_FLIP}`. -/
def decodeOpen (s : State) : Bool := s.tph.reads || decide (s.tph = .dFlip)

/-- The `n` bytes of a memory from offset `base` have been written since reset. -/
def Written (m : Memory) (base n : Nat) : Prop := ∀ k, k < n → (Memory.read m (base + k)).isSome = true

/-- R40 items 1 to 6 (item 2's "never decreases" is a statement about steps), with `READY` at the clear (R182) and no notification in `Idle` (R143). -/
structure RegInv (s : State) : Prop where
  widx_legal      : s.widx = 0 ∨ s.widx = 84
  ridx_legal      : s.ridx = 0 ∨ s.ridx = 84
  armed_open      : s.rxa = true → s.rxcPend = false ∧ s.rxcnt.toNat < s.rxlen.toNat
  armed_kind      : s.rxa = true →
    (s.link = .awaiting ∧ s.rxsp = .desc ∧ s.rxbase = 0 ∧ s.rxlen = 7) ∨
    (s.link = .streaming ∧ s.rxsp = .pool ∧ s.rxbase = s.widx ∧ s.rxlen = 84)
  idle_iff        : s.tph = .tIdle ↔ s.link = .idle
  loop_streaming  : 2 ≤ s.tph.code.toNat → s.link = .streaming
  ready_streaming : s.ready = true → s.link = .streaming
  pending_started : s.rxcPend = true → s.link ≠ .idle
  clear_ready     : s.tph = .dClr → s.ready = true

/-- R41: what will be read has been written; the buffer under decode and the one handed over are whole. -/
structure DataInv (s : State) : Prop where
  desc_landed  : s.rxa = true → s.rxsp = .desc → Written s.desc 0 s.rxcnt.toNat
  desc_whole   : s.rxcPend = true → s.link = .awaiting → Written s.desc 0 7
  pool_landed  : s.rxa = true → s.rxsp = .pool → Written s.pool s.rxbase.toNat s.rxcnt.toNat
  pool_whole   : s.rxcPend = true → s.link = .streaming → Written s.pool s.widx.toNat 84
  ready_whole  : s.ready = true → Written s.pool (flipOffset s.widx).toNat 84
  open_whole   : decodeOpen s = true → Written s.pool s.ridx.toNat 84
  shadow_some  : ∀ e ∈ s.shadow, e.2.isSome = true
  lock_step    : s.widx = s.ridx ↔ s.ready = decodeOpen s

/-- The two memories are canonical and lie inside their spaces (R60). -/
structure MemInv (s : State) : Prop where
  pool_canonical : Memory.wf s.pool
  desc_canonical : Memory.wf s.desc
  pool_inside    : ∀ c ∈ s.pool, c.1 < 168
  desc_inside    : ∀ c ∈ s.desc, c.1 < 7

/-- R32: every counter fits in `DIAG_W` bits. -/
structure CountInv (s : State) : Prop where
  acc   : s.cntAcc < 2 ^ s.cfg.diagW
  sync  : s.cntSync < 2 ^ s.cfg.diagW
  csum  : s.cntCsum < 2 ^ s.cfg.diagW
  ovr   : s.cntOvr < 2 ^ s.cfg.diagW
  hsbad : s.cntHsbad < 2 ^ s.cfg.diagW

/-- The invariant of XRX. -/
structure BlockInv (s : State) : Prop where
  regs   : RegInv s
  data   : DataInv s
  mem    : MemInv s
  counts : CountInv s

/-! ## The frame under decode -/

/-- The buffer at RIDX holds the frame with byte `f i` at offset i (R188: "let `f[i] = POOL[RIDX + i]`"). -/
def FrameAt (s : State) (f : Nat → Byte) : Prop :=
  s.ridx.toNat + 84 ≤ 168 ∧ ∀ i, i < 84 → Memory.read s.pool (s.ridx.toNat + i) = some (f i)

/-- No byte of the buffer at RIDX was overwritten under the decode in progress (R188). -/
def Unraced (s : State) : Prop := ∀ e ∈ s.shadow, ¬ (s.ridx.toNat ≤ e.1 ∧ e.1 < s.ridx.toNat + 84)

/-- Every value a read of the buffer at RIDX may return is a byte (R41). -/
def AllReadable (s : State) : Prop :=
  s.ridx.toNat + 84 ≤ 168 ∧ ∀ i, i < 84 → ∀ c ∈ s.candidates (s.ridx.toNat + i), c.isSome = true

/-! ## Counting steps since reset (R163) -/

/-- How many lines of the trace since the last RESET are `op`. -/
def countSince (op : Instr) (trace : List Event) : Nat :=
  trace.foldl (fun n e => match e with
    | .line i => if i = .reset then 0 else if i = op then n + 1 else n
    | .tx _ => n
    | .arm _ _ _ => n
    | .pub _ => n
    | .drop _ => n
    | .lost _ => n) 0

/-- R163: "`nW` be the number of `RXC.FRAME` steps since reset". -/
def nW (s : State) : Nat := countSince .rxcFrame s.trace

/-- R163: "`nC` the number of `DCLR` steps". -/
def nC (s : State) : Nat := countSince .dclr s.trace

/-- R163: "`nR` the number of `DFLIP` steps". -/
def nR (s : State) : Nat := countSince .dflip s.trace

/-- R163, the whole of it. -/
structure LockStep (s : State) : Prop where
  widx_parity : s.widx.toNat = 84 * (nW s % 2)
  ridx_parity : s.ridx.toNat = 84 * (nR s % 2)
  taken_lower : nR s ≤ nC s
  taken_upper : nC s ≤ nR s + 1
  open_iff    : decodeOpen s = true ↔ nC s = nR s + 1
  handed_lower : nC s ≤ nW s
  handed_upper : nW s ≤ nC s + 1
  ready_eq    : s.ready.toNat = nW s - nC s

/-! ## Premises and hazards (R243 to R249) -/

/-- `P1` at one operation (R244): "whenever an `RXC` step runs with `LINK = 2`, `nR = nW`". -/
def P1 (s : State) (i : Instr) : Prop := servesCompletion i = true → s.link = .streaming → nR s = nW s

/-- `P2` at one operation (R247): no byte arrives between a completion and the step that serves it. So no notification is
pending when a byte arrives, and a record row, whose bytes all land before its completion is served (log entry 9), fits in the
armed receive. -/
def P2 (s : State) (i : Instr) : Prop :=
  received i ≠ [] → s.rxcPend = false ∧ (s.rxa = true → s.rxcnt.toNat + (received i).length ≤ s.rxlen.toNat)

/-- What the sensor sends from RESET on, as R248 and R249 tell its parts. -/
structure Sensor where
  /-- What it sends without having the command: it was already sending, as after a RESET in mid-stream (R240, U18). -/
  early      : List Byte
  /-- Its answer to the command (R93). -/
  descriptor : List Byte
  /-- The stream after the answer (R94). -/
  frames     : List (List Byte)
deriving DecidableEq, Repr

/-- The byte stream of a sensor. -/
def Sensor.bytes (x : Sensor) : List Byte := x.early ++ x.descriptor ++ x.frames.flatten

/-- What arrives in a run is what the sensor sends, in order, up to some byte (R126(b), R249). -/
def Sensor.Delivers (x : Sensor) (is : List Instr) : Prop := (is.flatMap received) <+: x.bytes

/-- `P3` at one operation (R248): the descriptor receive is armed before the first descriptor byte arrives. So "the sensor sends
nothing until it has the command", and no byte arrives before START. A sensor that is already sending breaks it, whenever START comes. -/
def P3 (x : Sensor) (s : State) (i : Instr) : Prop := x.early = [] ∧ (received i ≠ [] → s.link ≠ .idle)

/-- `P4` (R249): the bytes after the descriptor are whole F84 records one after another, here given frame by frame. -/
def P4 (frames : List (List Byte)) : Prop := ∀ f ∈ frames, f.length = 84

/-- What decodes with these verdicts, oldest first, leave in the decode counters and the published angle (R188, R192). -/
structure Tallied (s t : State) (verdicts : List Verdict) : Prop where
  sync     : t.cntSync = (s.cntSync + verdicts.countP fun v => decide (v = .syncFail)) % 2 ^ s.cfg.diagW
  csum     : t.cntCsum = (s.cntCsum + verdicts.countP fun v => decide (v = .csumFail)) % 2 ^ s.cfg.diagW
  acc      : t.cntAcc =
    (s.cntAcc + verdicts.countP fun v => decide (v ≠ .syncFail ∧ v ≠ .csumFail)) % 2 ^ s.cfg.diagW
  newest   : ∀ q earlier,
    verdicts.reverse.dropWhile (fun v => decide (v = .syncFail ∨ v = .csumFail)) = .accept q :: earlier →
      t.pubAngleQ6 = q ∧ t.pubValid = true
  untouched : verdicts.reverse.dropWhile (fun v => decide (v = .syncFail ∨ v = .csumFail)) = [] →
    t.pubAngleQ6 = s.pubAngleQ6 ∧ t.pubValid = s.pubValid

/-- The row of the opcode table a frame falls under (R99). -/
def frameInstr (f : List Byte) : Instr := if frameSyncOk f then .frameSynced f else .frameUnsynced f

/-- A stream under way with every earlier frame decoded: the task is at its poll, nothing is pending, and the receive
of a whole frame is armed on the buffer the decoder will read next. -/
def StreamReady (s : State) : Prop :=
  s.link = .streaming ∧ s.tph = .dPoll ∧ s.ready = false ∧ s.rxcPend = false ∧ s.rxa = true ∧ s.rxsp = .pool ∧
  s.rxbase = s.widx ∧ s.rxlen = 84 ∧ s.rxcnt = 0 ∧ s.widx = s.ridx ∧ (s.ridx = 0 ∨ s.ridx = 84)

/-- R246: the next received byte falls on the buffer the decoder still has to read. -/
def Torn (s : State) : Prop := s.rxa = true ∧ s.rxsp = .pool ∧ s.rxbase = s.ridx ∧ s.tph.reads = true

/-! ## Stalls (R250) -/

/-- (a) "`LINK = 0`, `start` never pulsed". -/
def StallIdle (s : State) : Prop := s.link = .idle ∧ s.tph = .tIdle ∧ s.rxa = false ∧ s.rxcPend = false ∧ s.ready = false

/-- (b) "`LINK = 1`, fewer than 7 bytes ever arrive", and no byte is on its way. -/
def StallSilent (s : State) : Prop := s.link = .awaiting ∧ s.tph = .tWait ∧ s.rxa = true ∧ s.rxcPend = false

/-- (c) "`LINK = 1` after `RXC.HSBAD`". -/
def StallMismatch (s : State) : Prop := s.link = .awaiting ∧ s.tph = .tWait ∧ s.rxa = false ∧ s.rxcPend = false

/-- (d) "`LINK = 2` after `RXC.OVR` under `OVR_POLICY = halt`", once the unread frame has been decoded. -/
def StallHalt (s : State) : Prop :=
  s.link = .streaming ∧ s.tph = .dPoll ∧ s.rxa = false ∧ s.rxcPend = false ∧ s.ready = false

/-- (e) "`LINK = 2`, the sensor stops sending in mid-frame", once the task is at its poll. -/
def StallMidFrame (s : State) : Prop :=
  s.link = .streaming ∧ s.tph = .dPoll ∧ s.rxa = true ∧ s.rxcPend = false ∧ s.ready = false

/-- After `RXC.OVR` under `halt`, whether or not the unread frame has been decoded (R165). -/
def ReceptionOver (s : State) : Prop := s.link = .streaming ∧ s.rxa = false ∧ s.rxcPend = false

/-- What no stalled block changes: the link state, the frame-ready signal, the published angle and the decode diagnostics. -/
def SameService (s t : State) : Prop :=
  t.link = s.link ∧ t.ready = s.ready ∧ t.widx = s.widx ∧ t.ridx = s.ridx ∧
  t.pubAngleQ6 = s.pubAngleQ6 ∧ t.pubValid = s.pubValid ∧ t.dstat = s.dstat ∧
  t.cntAcc = s.cntAcc ∧ t.cntSync = s.cntSync ∧ t.cntCsum = s.cntCsum ∧ t.cntOvr = s.cntOvr ∧ t.cntHsbad = s.cntHsbad

end Sys2Proof.Safety
end

