-- ==== Sys2Proof/Certificates/Slice0/Obligations.lean ====
section
/-! DEFINITION. The statements for the provers, each `def Obligations.<Name> : Prop`. A docstring names the rule of spec/ a statement formalises, and the log entry where a clause is the model's own choice. -/

open Sys2Proof Sys2Proof.Machine Sys2Proof.Safety

/-! ## Steps and encodings -/

/-- A step runs the line at the head of the script (log entry 6): its instruction, with the line taken off the script; bytes that are no instruction are refused. -/
def Obligations.StepRunsTheScriptedLine : Prop :=
  ∀ (s : State) (fmt : Format) (b : Byte) (bs : List Byte) (rest : List Chunk),
    s.script = { fmt := fmt, bytes := b :: bs } :: rest →
    (∀ i left, decode fmt (b :: bs) = .ok (i, left) →
      step s = exec i { s with script := if left = [] then rest else { fmt := fmt, bytes := left } :: rest }) ∧
    (∀ e, decode fmt (b :: bs) = .error e → step s = .refused (.badEncoding e))

/-- R218(a) and R100 with nothing scripted (log entry 7): a pending notification is served before any task step; else the operation of the phase runs, and in T_IDLE nothing happens. -/
def Obligations.UnscriptedStepServesTheInterruptFirst : Prop :=
  ∀ s : State, s.script = [] →
    (s.rxcPend = true → step s = exec .rxc s) ∧
    (s.rxcPend = false →
      step s = match s.tph with
        | .tIdle => .next s
        | .tWait => exec .waits s
        | .dPoll => exec .dpoll s
        | .dClr => exec .dclr s
        | .dSync => exec .dsync s
        | .dCsum => exec .dcsum s
        | .dAng => exec .dang s
        | .dFlip => exec .dflip s)

/-- Words written out from R92, R99, R100 and R102 decode to what they stand for. -/
def Obligations.SpecWordsDecode : Prop :=
  decode .evt [0x01, 0x02] = .ok (.start, [0x02]) ∧
  decode .evt [0x11, 0xA5, 0x11, 0x5A] = .ok (.taRxb 0xA5, [0x11, 0x5A]) ∧
  decode .evt [0x09] = .ok (.dflip, []) ∧
  decode .evt [0x1C] = .ok (.rxcOvr, []) ∧
  decode .evt [0x1F] = .ok (.rxc, []) ∧
  decode .c9 [0xA5, 0x82, 0x05, 0x00, 0x00, 0x00, 0x00, 0x00, 0x22] = .ok (.cmdXscan, []) ∧
  decode .d7 [0x11, 0x22, 0x33, 0x44, 0x55, 0x66, 0x82] = .ok (.descOk [0x11, 0x22, 0x33, 0x44, 0x55, 0x66, 0x82], []) ∧
  decode .d7 [0x82, 0x82, 0x82, 0x82, 0x82, 0x82, 0x02] = .ok (.descBad [0x82, 0x82, 0x82, 0x82, 0x82, 0x82, 0x02], [])

/-- Decode and encode agree on every well-formed instruction, whatever bytes follow (R99, R100, R102; the operand bytes of TA.ARM and the spelling of TA.TX are the model's, log entry 10). -/
def Obligations.DecodeOfEncode : Prop :=
  ∀ (i : Instr) (rest : List Byte), i.wf = true → decode i.format (encode i ++ rest) = .ok (i, rest)

/-- Each word has one meaning: what decodes is well-formed, of the format asked for, and its encoding is the bytes that were read (R99, R100, R102; log entry 10 for TA.ARM and TA.TX). -/
def Obligations.EncodeOfDecode : Prop :=
  ∀ (fmt : Format) (bytes : List Byte) (i : Instr) (left : List Byte),
    decode fmt bytes = .ok (i, left) → i.wf = true ∧ i.format = fmt ∧ bytes = encode i ++ left

/-- R100: the ids that R100 leaves unassigned are refused by name. -/
def Obligations.UnassignedIdsAreRefused : Prop :=
  ∀ (id : Byte) (rest : List Byte),
    (0x0A ≤ id.toNat ∧ id.toNat ≤ 0x0F) ∨ (0x13 ≤ id.toNat ∧ id.toNat ≤ 0x17) ∨
      (0x1D ≤ id.toNat ∧ id.toNat ≠ 0x1F) →
    decode .evt (id :: rest) = .error (.unassignedId id)

/-- R99, R95: of the F84 records exactly those with high nibbles A and 5 are FRAME_SYNCED; the others are FRAME_UNSYNCED. -/
def Obligations.FrameRecordsAreClassifiedBySync : Prop :=
  ∀ f : List Byte, f.length = 84 →
    (syncOf (f.getD 0 0) (f.getD 1 0) = 0xA5 → decode .f84 f = .ok (.frameSynced f, [])) ∧
    (syncOf (f.getD 0 0) (f.getD 1 0) ≠ 0xA5 → decode .f84 f = .ok (.frameUnsynced f, []))

/-! ## Field assembly -/

/-- R95: `SYNC = hi4(byte0) : hi4(byte1)`, and the three ways of saying that a frame is in sync. -/
def Obligations.SyncAssembly : Prop :=
  ∀ b0 b1 : Byte, (syncOf b0 b1).toNat = 16 * (hi4 b0).toNat + (hi4 b1).toNat ∧
    (syncOf b0 b1 = 0xA5 ↔ hi4 b0 = 0xA ∧ hi4 b1 = 0x5) ∧
    (syncOf b0 b1 = 0xA5 ↔ b0 &&& 0xF0 = 0xA0 ∧ b1 &&& 0xF0 = 0x50)

/-- R96: `CKRX = lo4(byte1) : lo4(byte0)`. -/
def Obligations.ChecksumAssembly : Prop :=
  ∀ b0 b1 : Byte, (ckrxOf b0 b1).toNat = 16 * (lo4 b1).toNat + (lo4 b0).toNat

/-- R97: all 16 bits, unsigned; the 15-bit field and `S` are its slices; the unit is 1/64 degree. -/
def Obligations.AngleAssembly : Prop :=
  ∀ b3 b2 : Byte, (angleOf b3 b2).toNat = b3.toNat * 256 + b2.toNat ∧
    ((angleOf b3 b2).extractLsb' 0 15).toNat = (b3.extractLsb' 0 7).toNat * 256 + b2.toNat ∧
    (angleOf b3 b2).getLsbD 15 = b3.getLsbD 7 ∧
    degrees (angleOf b3 b2) = ((b3.toNat * 256 + b2.toNat : Nat) : Rat) / 64

/-! ## Transport Adapter -/

/-- R121; that the request can be a line of its own is the model's choice (log entry 10). -/
def Obligations.ArmRequest : Prop :=
  ∀ (s : State) (space : Space) (base : BitVec 8) (len : BitVec 7),
    (s.rxa = false → exec (.taArm space base len) s =
      .next { s with rxa := true, rxsp := space, rxbase := base, rxlen := len, rxcnt := 0
                     trace := s.trace ++ [.arm space base len] }) ∧
    (s.rxa = true → exec (.taArm space base len) s = .refused .armWhileArmed)

/-- R122, where a receive is armed: the byte is stored at the offset the adapter's operand form gives (R73), every other byte of both spaces reads as before, the count and the completion are as R122 says, and no other register changes. A byte that falls on the buffer under decode is recorded with what it overwrote (R189, R246; the record is log entry 13). -/
def Obligations.ReceivedByteLands : Prop :=
  ∀ (s : State) (b : Byte), s.rxa = true → adapterOffset s < spaceLen s.rxsp →
    ∃ t, exec (.taRxb b) s = .next t ∧
      t = { s with pool := t.pool, desc := t.desc, rxcnt := s.rxcnt + 1, rxa := t.rxa, rxcPend := t.rxcPend
                   shadow := t.shadow, trace := s.trace ++ [.line (.taRxb b)] } ∧
      ((s.tph = .dSync ∨ s.tph = .dCsum ∨ s.tph = .dAng) ∧ s.rxsp = .pool ∧
          s.ridx.toNat ≤ adapterOffset s ∧ adapterOffset s < s.ridx.toNat + 84 →
        t.shadow = (adapterOffset s, Memory.read s.pool (adapterOffset s)) :: s.shadow) ∧
      (¬ ((s.tph = .dSync ∨ s.tph = .dCsum ∨ s.tph = .dAng) ∧ s.rxsp = .pool ∧
          s.ridx.toNat ≤ adapterOffset s ∧ adapterOffset s < s.ridx.toNat + 84) →
        t.shadow = s.shadow) ∧
      (s.rxcnt + 1 = s.rxlen → t.rxa = false ∧ t.rxcPend = true) ∧
      (s.rxcnt + 1 ≠ s.rxlen → t.rxa = true ∧ t.rxcPend = s.rxcPend) ∧
      (s.rxsp = .pool → Memory.read t.pool (adapterOffset s) = some b ∧ t.desc = s.desc ∧
        ∀ a, a ≠ adapterOffset s → Memory.read t.pool a = Memory.read s.pool a) ∧
      (s.rxsp = .desc → Memory.read t.desc (adapterOffset s) = some b ∧ t.pool = s.pool ∧
        ∀ a, a ≠ adapterOffset s → Memory.read t.desc a = Memory.read s.desc a)

/-- R60, R122: a store outside its space faults (the model's stop, log entry 23, for an offset that R72 says no rule forms). -/
def Obligations.StoreOutsideItsSpaceFaults : Prop :=
  ∀ (s : State) (b : Byte), s.rxa = true → spaceLen s.rxsp ≤ adapterOffset s →
    exec (.taRxb b) s = .fault (.badOffset s.rxsp (adapterOffset s))

/-- R124: "written nowhere", "counted nowhere", "sets nothing". -/
def Obligations.UnarmedByteIsLost : Prop :=
  ∀ (s : State) (b : Byte), s.rxa = false →
    exec (.taRxb b) s = .next { s with trace := s.trace ++ [.line (.taRxb b), .lost b] }

/-- R122: "the k-th byte after arming, counting from 0, lands at offset `base + k`", for a whole record in the pool: nothing outside the record is written, and the completion is pending exactly after the last byte. -/
def Obligations.WholeFrameLandsInOrder : Prop :=
  ∀ (s : State) (f : List Byte), s.rxa = true → s.rxsp = .pool → s.rxcnt = 0 → s.rxcPend = false →
    0 < f.length → f.length ≤ s.rxlen.toNat → s.rxbase.toNat + s.rxlen.toNat ≤ 168 →
    ∃ t, runInstrs (f.map .taRxb) s = .next t ∧
      (∀ k, k < f.length → Memory.read t.pool (s.rxbase.toNat + k) = f[k]?) ∧
      (∀ a, (a < s.rxbase.toNat ∨ s.rxbase.toNat + f.length ≤ a) → Memory.read t.pool a = Memory.read s.pool a) ∧
      (f.length = s.rxlen.toNat → t.rxa = false ∧ t.rxcPend = true) ∧
      (f.length < s.rxlen.toNat → t.rxa = true ∧ t.rxcPend = false ∧ t.rxcnt.toNat = f.length) ∧
      t = { s with pool := t.pool, rxcnt := t.rxcnt, rxa := t.rxa, rxcPend := t.rxcPend, shadow := t.shadow, trace := t.trace }

/-- R123 and R92: the bytes go out and nothing else changes; that the two can be lines of their own is the model's choice (log entry 10). -/
def Obligations.SendRequest : Prop :=
  ∀ s : State, (∀ bytes, exec (.taTx bytes) s = .next { s with trace := s.trace ++ [.tx bytes] }) ∧
    exec .cmdXscan s = .next { s with trace := s.trace ++ [.tx [0xA5, 0x82, 0x05, 0x00, 0x00, 0x00, 0x00, 0x00, 0x22]] }

/-- A run of XRX sends nothing but the command, and only in START (R141, 95_test_vectors.md S1). -/
def Obligations.OnlyTheCommandIsSent : Prop :=
  ∀ (i : Instr) (s t : State), ownStep i = true → exec i s = .next t →
    ∃ new, t.trace = s.trace ++ new ∧
      ∀ bytes, .tx bytes ∈ new → i = .start ∧ bytes = [0xA5, 0x82, 0x05, 0x00, 0x00, 0x00, 0x00, 0x00, 0x22]

/-! ## Link State Machine -/

/-- R141, with the refusal where a receive is armed (R121), which no reachable T_IDLE state has. -/
def Obligations.StartSendsAndArms : Prop :=
  ∀ s : State,
    (s.tph = .tIdle → s.rxa = false → exec .start s =
      .next { s with
        link := .awaiting, tph := .tWait, rxa := true, rxsp := .desc, rxbase := 0, rxlen := 7, rxcnt := 0
        trace := s.trace ++ [.line .start, .tx [0xA5, 0x82, 0x05, 0x00, 0x00, 0x00, 0x00, 0x00, 0x22], .arm .desc 0 7] }) ∧
    (s.tph = .tIdle → s.rxa = true → exec .start s = .refused .armWhileArmed) ∧
    (s.tph ≠ .tIdle → exec .start s = .refused (.notEnabled "START"))

/-- R142. -/
def Obligations.WaitsPollsTheLink : Prop :=
  ∀ s : State,
    (s.tph = .tWait → s.link = .streaming →
      exec .waits s = .next { s with tph := .dPoll, trace := s.trace ++ [.line .waits] }) ∧
    (s.tph = .tWait → s.link ≠ .streaming → exec .waits s = .next { s with trace := s.trace ++ [.line .waits] }) ∧
    (s.tph ≠ .tWait → exec .waits s = .refused (.notEnabled "WAITS"))

/-- R143, the spec's own definition "for totality" (D16): running the step is one of the two choices it leaves to a model (U11; log entry 24), and the refusals are log entry 14. That a completion in `Idle` "cannot occur in a run from reset" is R40 items 4 and 5. -/
def Obligations.IdleCompletionOnlyClears : Prop :=
  ∀ s : State,
    (s.rxcPend = true → s.link = .idle →
      exec .rxcIdle s = .next { s with rxcPend := false, trace := s.trace ++ [.line .rxcIdle] }) ∧
    (¬ (s.rxcPend = true ∧ s.link = .idle) → exec .rxcIdle s = .refused (.notEnabled "RXC.IDLE")) ∧
    (RegInv s → exec .rxcIdle s = .refused (.notEnabled "RXC.IDLE"))

/-- R144. -/
def Obligations.MatchingDescriptorStartsStreaming : Prop :=
  (∀ s : State, ¬ (s.rxcPend = true ∧ s.link = .awaiting) → exec .rxcHsok s = .refused (.notEnabled "RXC.HSOK")) ∧
  ∀ s : State, s.rxcPend = true → s.link = .awaiting → Memory.read s.desc 6 = some 0x82 →
    (s.rxa = false → exec .rxcHsok s =
      .next { s with
        rxcPend := false, link := .streaming, rxa := true, rxsp := .pool, rxbase := s.widx, rxlen := 84, rxcnt := 0
        trace := s.trace ++ [.line .rxcHsok, .arm .pool s.widx 84] }) ∧
    (s.rxa = true → exec .rxcHsok s = .refused .armWhileArmed) ∧
    exec .rxcHsbad s = .refused (.notEnabled "RXC.HSBAD")

/-- R145. -/
def Obligations.WrongDescriptorIsDropped : Prop :=
  (∀ s : State, ¬ (s.rxcPend = true ∧ s.link = .awaiting) → exec .rxcHsbad s = .refused (.notEnabled "RXC.HSBAD")) ∧
  ∀ (s : State) (b : Byte), s.rxcPend = true → s.link = .awaiting → Memory.read s.desc 6 = some b → b ≠ 0x82 →
    exec .rxcHsbad s =
      .next { s with rxcPend := false, cntHsbad := (s.cntHsbad + 1) % 2 ^ s.cfg.diagW
                     trace := s.trace ++ [.line .rxcHsbad, .drop (.hsMismatch b)] } ∧
    exec .rxcHsok s = .refused (.notEnabled "RXC.HSOK")

/-- R140: the link state moves along one path, one edge at a time, and only RESET returns it to Idle. -/
def Obligations.LinkMovesAlongOnePath : Prop :=
  ∀ (i : Instr) (s t : State), RegInv s → exec i s = .next t →
    t.link = s.link ∨ (i = .reset ∧ t.link = .idle) ∨
    (s.link = .idle ∧ t.link = .awaiting ∧ i = .start) ∨
    (s.link = .awaiting ∧ t.link = .streaming ∧ (i = .rxcHsok ∨ i = .rxc ∨ isRecord i = true))

/-! ## Reception Pipeline -/

/-- R160, which the spec marks as its own inference ("derived: from rule R120 and rule R23"). That the step runs at LINK = 0 is one of the two choices the spec leaves to a model (R143, D16, U11; log entry 24), and the refusal with nothing pending is log entry 14. -/
def Obligations.DispatchRunsExactlyOneVariant : Prop :=
  ∀ s : State,
    (s.rxcPend = true → s.link = .idle → exec .rxc s = exec .rxcIdle s) ∧
    (s.rxcPend = true → s.link = .awaiting → Memory.read s.desc 6 = some 0x82 → exec .rxc s = exec .rxcHsok s) ∧
    (∀ b, s.rxcPend = true → s.link = .awaiting → Memory.read s.desc 6 = some b → b ≠ 0x82 →
      exec .rxc s = exec .rxcHsbad s) ∧
    (s.rxcPend = true → s.link = .streaming → s.ready = false → exec .rxc s = exec .rxcFrame s) ∧
    (s.rxcPend = true → s.link = .streaming → s.ready = true → exec .rxc s = exec .rxcOvr s) ∧
    (s.rxcPend = false → exec .rxc s = .refused (.notEnabled "RXC")) ∧
    (∀ t, exec .rxc s = .next t → t.rxcPend = false ∧ t.tph = s.tph)

/-- RXC completes wherever a notification is pending, nothing is armed, and DESC[6] holds a value when the handshake needs it (R160, R220: it "must never block"). That it completes at LINK = 0 too, where a model may refuse it (R143, D16, U11), is the model's choice (log entry 24). -/
def Obligations.DispatchNeverBlocks : Prop :=
  ∀ s : State, s.rxcPend = true → s.rxa = false → (s.link = .awaiting → (Memory.read s.desc 6).isSome = true) →
    ∃ t, exec .rxc s = .next t ∧ t.rxcPend = false ∧
      t = { s with link := t.link, ready := t.ready, widx := t.widx, rxa := t.rxa, rxsp := t.rxsp, rxbase := t.rxbase
                   rxlen := t.rxlen, rxcnt := t.rxcnt, rxcPend := false, cntOvr := t.cntOvr, cntHsbad := t.cntHsbad
                   trace := t.trace }

/-- R161; the refusals, that of the whole step where a receive is armed (R121) among them, are log entry 14. -/
def Obligations.FrameIsHandedOver : Prop :=
  ∀ s : State,
    (s.rxcPend = true → s.link = .streaming → s.ready = false → s.rxa = false →
      exec .rxcFrame s =
        .next { s with
          rxcPend := false, ready := true, widx := 84 - s.widx
          rxa := true, rxsp := .pool, rxbase := 84 - s.widx, rxlen := 84, rxcnt := 0
          trace := s.trace ++ [.line .rxcFrame, .arm .pool (84 - s.widx) 84] }) ∧
    (s.rxcPend = true → s.link = .streaming → s.ready = false → s.rxa = true →
      exec .rxcFrame s = .refused .armWhileArmed) ∧
    (¬ (s.rxcPend = true ∧ s.link = .streaming ∧ s.ready = false) →
      exec .rxcFrame s = .refused (.notEnabled "RXC.FRAME"))

/-- R162, under both values of OVR_POLICY (D14); the refusals, that of the whole step where a receive is armed (R121) among them, are log entry 14. -/
def Obligations.OverrunDropsTheNewFrame : Prop :=
  ∀ s : State,
    (s.rxcPend = true → s.link = .streaming → s.ready = true → s.cfg.ovrPolicy = .halt →
      exec .rxcOvr s =
        .next { s with rxcPend := false, cntOvr := (s.cntOvr + 1) % 2 ^ s.cfg.diagW
                       trace := s.trace ++ [.line .rxcOvr, .drop (.overrun s.widx)] }) ∧
    (s.rxcPend = true → s.link = .streaming → s.ready = true → s.cfg.ovrPolicy = .rearmSame → s.rxa = false →
      exec .rxcOvr s =
        .next { s with
          rxcPend := false, cntOvr := (s.cntOvr + 1) % 2 ^ s.cfg.diagW
          rxa := true, rxsp := .pool, rxbase := s.widx, rxlen := 84, rxcnt := 0
          trace := s.trace ++ [.line .rxcOvr, .drop (.overrun s.widx), .arm .pool s.widx 84] }) ∧
    (s.rxcPend = true → s.link = .streaming → s.ready = true → s.cfg.ovrPolicy = .rearmSame → s.rxa = true →
      exec .rxcOvr s = .refused .armWhileArmed) ∧
    (¬ (s.rxcPend = true ∧ s.link = .streaming ∧ s.ready = true) →
      exec .rxcOvr s = .refused (.notEnabled "RXC.OVR"))

/-! ## Frame Decoder -/

/-- R181. -/
def Obligations.DpollSeesTheSignal : Prop :=
  ∀ s : State,
    (s.tph = .dPoll → s.ready = true →
      exec .dpoll s = .next { s with tph := .dClr, trace := s.trace ++ [.line .dpoll] }) ∧
    (s.tph = .dPoll → s.ready = false → exec .dpoll s = .next { s with trace := s.trace ++ [.line .dpoll] }) ∧
    (s.tph ≠ .dPoll → exec .dpoll s = .refused (.notEnabled "DPOLL"))

/-- R182; that the record of overwritten bytes is emptied is the model's own (log entry 13). -/
def Obligations.DclrTakesTheFrame : Prop :=
  ∀ s : State,
    (s.tph = .dClr →
      exec .dclr s = .next { s with ready := false, tph := .dSync, shadow := [], trace := s.trace ++ [.line .dclr] }) ∧
    (s.tph ≠ .dClr → exec .dclr s = .refused (.notEnabled "DCLR"))

/-- R183, where no byte of the buffer is raced. -/
def Obligations.DsyncChecksTheSyncByte : Prop :=
  ∀ s : State,
    (∀ f : Nat → Byte, s.tph = .dSync → FrameAt s f → Unraced s →
      (hi4 (f 0) = 0xA ∧ hi4 (f 1) = 0x5 →
        exec .dsync s = .next { s with tph := .dCsum, trace := s.trace ++ [.line .dsync] }) ∧
      (¬ (hi4 (f 0) = 0xA ∧ hi4 (f 1) = 0x5) →
        exec .dsync s = .next { s with
          tph := .dFlip, dstat := .syncFail, cntSync := (s.cntSync + 1) % 2 ^ s.cfg.diagW
          trace := s.trace ++ [.line .dsync, .drop (.syncFail (syncOf (f 0) (f 1)))] })) ∧
    (s.tph ≠ .dSync → exec .dsync s = .refused (.notEnabled "DSYNC"))

/-- R184, where no byte of the buffer is raced: the XOR of bytes 2 to 83 in any association against the low nibbles of bytes 1 and 0. -/
def Obligations.DcsumValidatesTheChecksum : Prop :=
  ∀ s : State,
    (∀ f : Nat → Byte, s.tph = .dCsum → FrameAt s f → Unraced s →
      ∀ acc : Byte, acc = (List.range 82).foldr (fun i a => f (2 + i) ^^^ a) 0x00 →
      (acc.toNat = 16 * (lo4 (f 1)).toNat + (lo4 (f 0)).toNat →
        exec .dcsum s = .next { s with tph := .dAng, trace := s.trace ++ [.line .dcsum] }) ∧
      (acc.toNat ≠ 16 * (lo4 (f 1)).toNat + (lo4 (f 0)).toNat →
        exec .dcsum s = .next { s with
          tph := .dFlip, dstat := .csumFail, cntCsum := (s.cntCsum + 1) % 2 ^ s.cfg.diagW
          trace := s.trace ++ [.line .dcsum, .drop (.csumFail acc (ckrxOf (f 0) (f 1)))] })) ∧
    (s.tph ≠ .dCsum → exec .dcsum s = .refused (.notEnabled "DCSUM"))

/-- R185, where no byte of the buffer is raced; the angle is R97's (AngleAssembly). -/
def Obligations.DangPublishesTheAngle : Prop :=
  ∀ s : State,
    (∀ f : Nat → Byte, s.tph = .dAng → FrameAt s f → Unraced s →
      exec .dang s = .next { s with
        tph := .dFlip, pubAngleQ6 := angleOf (f 3) (f 2), pubValid := true, dstat := .accepted
        cntAcc := (s.cntAcc + 1) % 2 ^ s.cfg.diagW
        trace := s.trace ++ [.line .dang, .pub (angleOf (f 3) (f 2))] }) ∧
    (s.tph ≠ .dAng → exec .dang s = .refused (.notEnabled "DANG"))

/-- R186. -/
def Obligations.CabinDecodeIsRefused : Prop := ∀ s : State, exec .dcab s = .refused .cabinDecodeReserved

/-- R187; that the record of overwritten bytes is emptied is the model's own (log entry 13). -/
def Obligations.DflipFlipsTheReadOffset : Prop :=
  ∀ s : State,
    (s.tph = .dFlip →
      exec .dflip s =
        .next { s with ridx := 84 - s.ridx, tph := .dPoll, shadow := [], trace := s.trace ++ [.line .dflip] }) ∧
    (s.tph ≠ .dFlip → exec .dflip s = .refused (.notEnabled "DFLIP")) ∧
    (84 : BitVec 8) - 0 = 84 ∧ (84 : BitVec 8) - 84 = 0

/-- R188: a decode of a buffer that nothing writes has exactly the effect of the reference function; the emptied record of overwritten bytes is the model's own (log entry 13). -/
def Obligations.DecodeIsTheReferenceFunction : Prop :=
  ∀ (s : State) (f : Nat → Byte), s.tph = .dClr → FrameAt s f →
    match decodeFrame f with
    | .syncFail =>
      runInstrs [.dclr, .dsync, .dflip] s =
        .next { s with
          ready := false, ridx := 84 - s.ridx, tph := .dPoll, shadow := [], dstat := .syncFail
          cntSync := (s.cntSync + 1) % 2 ^ s.cfg.diagW
          trace := s.trace ++ [.line .dclr, .line .dsync, .drop (.syncFail (syncOf (f 0) (f 1))), .line .dflip] }
    | .csumFail =>
      runInstrs [.dclr, .dsync, .dcsum, .dflip] s =
        .next { s with
          ready := false, ridx := 84 - s.ridx, tph := .dPoll, shadow := [], dstat := .csumFail
          cntCsum := (s.cntCsum + 1) % 2 ^ s.cfg.diagW
          trace := s.trace ++ [.line .dclr, .line .dsync, .line .dcsum,
            .drop (.csumFail ((List.range' 2 82).foldl (fun acc i => acc ^^^ f i) 0x00) (ckrxOf (f 0) (f 1))),
            .line .dflip] }
    | .accept q =>
      q = angleOf (f 3) (f 2) ∧
      runInstrs [.dclr, .dsync, .dcsum, .dang, .dflip] s =
        .next { s with
          ready := false, ridx := 84 - s.ridx, tph := .dPoll, shadow := [], dstat := .accepted
          cntAcc := (s.cntAcc + 1) % 2 ^ s.cfg.diagW, pubAngleQ6 := q, pubValid := true
          trace := s.trace ++ [.line .dclr, .line .dsync, .line .dcsum, .line .dang, .pub q, .line .dflip] }

/-- R189: where bytes are raced, each read returns the byte there or a byte that was overwritten there, and the operation has exactly its effect on those bytes, whatever the free value picks (log entry 13); only the index of the next free value is left open. -/
def Obligations.RacedReadsReturnOldOrNewBytes : Prop :=
  ∀ s : State, AllReadable s →
    (s.tph = .dSync → ∃ (b0 b1 : Byte) (n : Nat),
      some b0 ∈ s.candidates (s.ridx.toNat + 0) ∧ some b1 ∈ s.candidates (s.ridx.toNat + 1) ∧
      (hi4 b0 = 0xA ∧ hi4 b1 = 0x5 →
        exec .dsync s = .next { s with freeIdx := n, tph := .dCsum, trace := s.trace ++ [.line .dsync] }) ∧
      (¬ (hi4 b0 = 0xA ∧ hi4 b1 = 0x5) →
        exec .dsync s = .next { s with
          freeIdx := n, tph := .dFlip, dstat := .syncFail, cntSync := (s.cntSync + 1) % 2 ^ s.cfg.diagW
          trace := s.trace ++ [.line .dsync, .drop (.syncFail (syncOf b0 b1))] })) ∧
    (s.tph = .dCsum → ∃ (g : Nat → Byte) (acc : Byte) (n : Nat),
      (∀ i, i < 84 → some (g i) ∈ s.candidates (s.ridx.toNat + i)) ∧
      acc = (List.range' 2 82).foldl (fun a i => a ^^^ g i) 0x00 ∧
      (acc = ckrxOf (g 0) (g 1) →
        exec .dcsum s = .next { s with freeIdx := n, tph := .dAng, trace := s.trace ++ [.line .dcsum] }) ∧
      (acc ≠ ckrxOf (g 0) (g 1) →
        exec .dcsum s = .next { s with
          freeIdx := n, tph := .dFlip, dstat := .csumFail, cntCsum := (s.cntCsum + 1) % 2 ^ s.cfg.diagW
          trace := s.trace ++ [.line .dcsum, .drop (.csumFail acc (ckrxOf (g 0) (g 1)))] })) ∧
    (s.tph = .dAng → ∃ (b3 b2 : Byte) (n : Nat),
      some b3 ∈ s.candidates (s.ridx.toNat + 3) ∧ some b2 ∈ s.candidates (s.ridx.toNat + 2) ∧
      exec .dang s = .next { s with
        freeIdx := n, tph := .dFlip, pubAngleQ6 := angleOf b3 b2, pubValid := true, dstat := .accepted
        cntAcc := (s.cntAcc + 1) % 2 ^ s.cfg.diagW
        trace := s.trace ++ [.line .dang, .pub (angleOf b3 b2)] })

/-- R103: decoding `FRAME(q, cab)` accepts with the angle q, for every angle and every 80 cabin bytes. -/
def Obligations.BuiltFramesAreAccepted : Prop :=
  ∀ (q : BitVec 16) (cab : List Byte), cab.length = 80 →
    (frameBytes q cab).length = 84 ∧ decodeFrame (fun i => (frameBytes q cab).getD i 0) = .accept q

/-- R184: a frame that passes fails its checksum once any one byte of 2 to 83 is another byte. -/
def Obligations.ChecksumDetectsOneChangedByte : Prop :=
  ∀ (f g : Nat → Byte) (q : BitVec 16) (i : Nat), decodeFrame f = .accept q → 2 ≤ i → i ≤ 83 → f i ≠ g i →
    (∀ j, j ≠ i → g j = f j) → decodeFrame g = .csumFail

/-- R180, R193: the task phase moves only along the edges of the graph, and every other operation leaves it as it found it. -/
def Obligations.PhaseGraph : Prop :=
  ∀ (i : Instr) (s t : State), isRecord i = false → exec i s = .next t →
    match i with
    | .reset => t.tph = .tIdle
    | .start => s.tph = .tIdle ∧ t.tph = .tWait
    | .waits => s.tph = .tWait ∧ t.tph = (if s.link = .streaming then .dPoll else .tWait)
    | .dpoll => s.tph = .dPoll ∧ t.tph = (if s.ready = true then .dClr else .dPoll)
    | .dclr => s.tph = .dClr ∧ t.tph = .dSync
    | .dsync => s.tph = .dSync ∧ (t.tph = .dCsum ∨ t.tph = .dFlip)
    | .dcsum => s.tph = .dCsum ∧ (t.tph = .dAng ∨ t.tph = .dFlip)
    | .dang => s.tph = .dAng ∧ t.tph = .dFlip
    | .dflip => s.tph = .dFlip ∧ t.tph = .dPoll
    | _ => t.tph = s.tph

/-! ## Records -/

/-- A descriptor record on the armed descriptor receive (R93, R144, R145; the record as one schedule is log entry 9). -/
def Obligations.DescriptorRecordDecidesTheHandshake : Prop :=
  ∀ (s : State) (d : List Byte), s.link = .awaiting → s.rxa = true → s.rxsp = .desc → s.rxlen = 7 → s.rxcnt = 0 →
    d.length = 7 →
    (d[6]? = some 0x82 → ∃ t, exec (.descOk d) s = .next t ∧
      (∀ k, k < 7 → Memory.read t.desc k = d[k]?) ∧
      t = { s with
        desc := t.desc, link := .streaming, rxcPend := false, rxa := true, rxsp := .pool, rxbase := s.widx
        rxlen := 84, rxcnt := 0, trace := t.trace }) ∧
    (d[6]? ≠ some 0x82 → ∃ t, exec (.descBad d) s = .next t ∧
      (∀ k, k < 7 → Memory.read t.desc k = d[k]?) ∧
      t = { s with
        desc := t.desc, rxcPend := false, rxa := false, rxcnt := 7
        cntHsbad := (s.cntHsbad + 1) % 2 ^ s.cfg.diagW, trace := t.trace })

/-- A frame record in a stream under way (R161, R188; the record as one schedule is log entry 9): it lands in the buffer at WIDX, is handed over, decoded as the reference function says, and leaves the block ready for the next one. -/
def Obligations.FrameRecordIsDecoded : Prop :=
  ∀ (s : State) (f : List Byte), StreamReady s → f.length = 84 →
    ∃ t, exec (frameInstr f) s = .next t ∧ StreamReady t ∧
      (∀ k, k < 84 → Memory.read t.pool (s.ridx.toNat + k) = f[k]?) ∧
      (∀ a, (a < s.ridx.toNat ∨ s.ridx.toNat + 84 ≤ a) → Memory.read t.pool a = Memory.read s.pool a) ∧
      match decodeFrame (fun i => f.getD i 0) with
      | .syncFail => t = { s with
          pool := t.pool, widx := 84 - s.widx, ridx := 84 - s.ridx, rxbase := 84 - s.widx, shadow := [], trace := t.trace
          dstat := .syncFail, cntSync := (s.cntSync + 1) % 2 ^ s.cfg.diagW }
      | .csumFail => t = { s with
          pool := t.pool, widx := 84 - s.widx, ridx := 84 - s.ridx, rxbase := 84 - s.widx, shadow := [], trace := t.trace
          dstat := .csumFail, cntCsum := (s.cntCsum + 1) % 2 ^ s.cfg.diagW }
      | .accept q => t = { s with
          pool := t.pool, widx := 84 - s.widx, ridx := 84 - s.ridx, rxbase := 84 - s.widx, shadow := [], trace := t.trace
          dstat := .accepted, cntAcc := (s.cntAcc + 1) % 2 ^ s.cfg.diagW, pubAngleQ6 := q, pubValid := true }

/-- A stream received as frame rows, on the one schedule that log entry 9 gives them (every other schedule is EveryFrameIsDecodedUnderThePremises): with P4, of whole frames every one is decoded, none overruns, and the last accepted angle is the published one (the old one where every frame was rejected). -/
def Obligations.EveryFrameOfAStreamIsDecoded : Prop :=
  ∀ (frames : List (List Byte)) (s : State), P4 frames → StreamReady s → CountInv s →
    ∃ t, runInstrs (frames.map frameInstr) s = .next t ∧ StreamReady t ∧
      (∀ verdicts, verdicts = frames.map (fun f => decodeFrame fun i => f.getD i 0) →
        t.cntSync = (s.cntSync + verdicts.countP (fun v => decide (v = .syncFail))) % 2 ^ s.cfg.diagW ∧
        t.cntCsum = (s.cntCsum + verdicts.countP (fun v => decide (v = .csumFail))) % 2 ^ s.cfg.diagW ∧
        t.cntAcc = (s.cntAcc + verdicts.countP (fun v => decide (v ≠ .syncFail ∧ v ≠ .csumFail))) % 2 ^ s.cfg.diagW ∧
        (∀ q earlier, verdicts.reverse.dropWhile (fun v => decide (v = .syncFail ∨ v = .csumFail)) = .accept q :: earlier →
          t.pubAngleQ6 = q ∧ t.pubValid = true) ∧
        (verdicts.reverse.dropWhile (fun v => decide (v = .syncFail ∨ v = .csumFail)) = [] →
          t.pubAngleQ6 = s.pubAngleQ6 ∧ t.pubValid = s.pubValid)) ∧
      t.cntOvr = s.cntOvr ∧ t.cntHsbad = s.cntHsbad

/-- A record can always arrive: whatever the schedule before it, the block completes it (R122, R124, R160, R41; the record as one schedule is log entry 9). -/
def Obligations.RecordsCompleteInEverySafeState : Prop :=
  ∀ (s : State) (r : List Byte), BlockInv s →
    (∃ t, exec (.descOk r) s = .next t ∧ BlockInv t) ∧ (∃ t, exec (.descBad r) s = .next t ∧ BlockInv t) ∧
    (∃ t, exec (.frameSynced r) s = .next t ∧ BlockInv t) ∧ (∃ t, exec (.frameUnsynced r) s = .next t ∧ BlockInv t)

/-! ## Reset -/

/-- R240, R39: what RESET leaves; what R39 leaves unspecified is free (log entry 4), POOL and DESC hold no value, and the parameters and the script are not touched. -/
def Obligations.ResetLeavesTheResetState : Prop :=
  ∀ s : State, ∃ t, exec .reset s = .next t ∧
    t.link = .idle ∧ t.ready = false ∧ t.widx = 0 ∧ t.ridx = 0 ∧ t.tph = .tIdle ∧ t.rxa = false ∧ t.rxcPend = false ∧
    t.pubValid = false ∧ t.dstat = .none ∧
    t.cntAcc = 0 ∧ t.cntSync = 0 ∧ t.cntCsum = 0 ∧ t.cntOvr = 0 ∧ t.cntHsbad = 0 ∧
    (∀ a, Memory.read t.pool a = none) ∧ (∀ a, Memory.read t.desc a = none) ∧
    t.cfg = s.cfg ∧ t.script = s.script ∧ t.trace = s.trace ++ [.line .reset]

/-- R39 and R40: the reset state has R39's values, meets the invariant, and R163's counters start in step. -/
def Obligations.ResetStateIsSafe : Prop :=
  BlockInv State.reset ∧ LockStep State.reset ∧
  State.reset.link = .idle ∧ State.reset.ready = false ∧ State.reset.widx = 0 ∧ State.reset.ridx = 0 ∧
  State.reset.tph = .tIdle ∧ State.reset.rxa = false ∧ State.reset.rxcPend = false ∧ State.reset.pubValid = false ∧
  State.reset.dstat = .none ∧ State.reset.cntAcc = 0 ∧ State.reset.cntSync = 0 ∧ State.reset.cntCsum = 0 ∧
  State.reset.cntOvr = 0 ∧ State.reset.cntHsbad = 0 ∧ State.reset.pool = [] ∧ State.reset.desc = [] ∧
  State.reset.publishedAngle = none

/-! ## The whole machine -/

/-- R40, R41, R60, R32: every step from a state of the invariant leads to a state of the invariant, for every schedule of XRX's own steps and both values of OVR_POLICY. -/
def Obligations.EveryStepKeepsTheInvariant : Prop :=
  ∀ s t : State, BlockInv s → ScheduleOk s → step s = .next t → BlockInv t

/-- R41, R72: no operation and no step from a state of the invariant faults. -/
def Obligations.NothingFaultsFromASafeState : Prop :=
  ∀ s : State, BlockInv s → (∀ i e, exec i s ≠ .fault e) ∧ (∀ e, step s ≠ .fault e)

/-- R100, R8: from a state of the invariant an operation completes exactly where R100 selects it; that TA.TX, CMD_XSCAN and the records are enabled everywhere is the model's choice (log entries 9 and 10), and the stops where it is not selected are log entry 14. -/
def Obligations.OperationsCompleteExactlyWhereEnabled : Prop :=
  ∀ (i : Instr) (s : State), BlockInv s → ((∃ t, exec i s = .next t) ↔ enabled s i = true)

/-- R163: every step keeps the two indices in step with the counts of RXC.FRAME, DCLR and DFLIP since reset. -/
def Obligations.EveryStepKeepsLockStep : Prop :=
  ∀ s t : State, RegInv s → LockStep s → step s = .next t → LockStep t

/-- R246: a torn read needs the write side two frames ahead of the read side. -/
def Obligations.TornReadNeedsTwoFramesAhead : Prop :=
  ∀ s : State, RegInv s → LockStep s → Torn s → nW s = nR s + 2

/-- R244, 95_test_vectors.md S9: under P1 the write side is never two frames ahead, so no received byte falls on the buffer under decode. -/
def Obligations.PromptConsumerNeverTears : Prop :=
  ∀ (i : Instr) (s t : State), RegInv s → LockStep s → nW s ≤ nR s + 1 → P1 s i → ownStep i = true →
    exec i s = .next t → nW t ≤ nR t + 1 ∧ ¬ Torn t

/-- R20: a register is written by no operation but those of its row (RESET and the record schedules apart); the parameters and the script by none. -/
def Obligations.RegistersAreWrittenOnlyByTheirOperations : Prop :=
  ∀ (i : Instr) (s t : State), isRecord i = false → i ≠ .reset → exec i s = .next t →
    ((∀ b, i ≠ .taRxb b) → t.pool = s.pool ∧ t.desc = s.desc) ∧
    (i ∉ [.start, .rxcHsok, .rxc] → t.link = s.link) ∧
    (i ∉ [.rxcFrame, .dclr, .rxc] → t.ready = s.ready) ∧
    (i ∉ [.rxcFrame, .rxc] → t.widx = s.widx) ∧
    (i ≠ .dflip → t.ridx = s.ridx) ∧
    (i ∉ [.start, .waits, .dpoll, .dclr, .dsync, .dcsum, .dang, .dflip] → t.tph = s.tph) ∧
    ((∀ sp b n, i ≠ .taArm sp b n) → i ∉ [.start, .rxcHsok, .rxcFrame, .rxcOvr, .rxc] →
      t.rxsp = s.rxsp ∧ t.rxbase = s.rxbase ∧ t.rxlen = s.rxlen ∧
      ((∀ b, i ≠ .taRxb b) → t.rxa = s.rxa ∧ t.rxcnt = s.rxcnt)) ∧
    ((∀ b, i ≠ .taRxb b) → i ∉ [.rxcIdle, .rxcHsok, .rxcHsbad, .rxcFrame, .rxcOvr, .rxc] → t.rxcPend = s.rxcPend) ∧
    (i ≠ .dang → t.pubAngleQ6 = s.pubAngleQ6 ∧ t.pubValid = s.pubValid ∧ t.cntAcc = s.cntAcc) ∧
    (i ∉ [.dsync, .dcsum, .dang] → t.dstat = s.dstat) ∧
    (i ≠ .dsync → t.cntSync = s.cntSync) ∧
    (i ≠ .dcsum → t.cntCsum = s.cntCsum) ∧
    (i ∉ [.rxcOvr, .rxc] → t.cntOvr = s.cntOvr) ∧
    (i ∉ [.rxcHsbad, .rxc] → t.cntHsbad = s.cntHsbad) ∧
    t.cfg = s.cfg ∧ t.script = s.script

/-! ## Stalls and lost bytes -/

/-- R145, R250(c): after a mismatch nothing but RESET changes the link state, the published angle or any other service of the block. -/
def Obligations.HandshakeMismatchStallsForEver : Prop :=
  ∀ (i : Instr) (s t : State),
    (BlockInv s → exec .rxcHsbad s = .next t → StallMismatch t) ∧
    (StallMismatch s → ownStep i = true → i ≠ .reset → exec i s = .next t → StallMismatch t ∧ SameService s t)

/-- R165, R250(d): after an overrun under `halt` nothing is armed again; once the unread frame is decoded nothing but RESET changes the service. -/
def Obligations.HaltedReceptionNeverResumes : Prop :=
  ∀ (i : Instr) (s t : State),
    (s.cfg.ovrPolicy = .halt → BlockInv s → exec .rxcOvr s = .next t → ReceptionOver t) ∧
    (ReceptionOver s → s.tph ≠ .tIdle → ownStep i = true → i ≠ .reset → exec i s = .next t →
      ReceptionOver t ∧ t.tph ≠ .tIdle ∧ t.pool = s.pool ∧ t.widx = s.widx) ∧
    (StallHalt s → ownStep i = true → i ≠ .reset → exec i s = .next t → StallHalt t ∧ SameService s t)

/-- R250(a), (b), (e): a block that is not started, or whose sensor is silent, stays where it is. -/
def Obligations.SilentBlockStaysWhereItIs : Prop :=
  ∀ (i : Instr) (s t : State), ownStep i = true → i ≠ .reset → exec i s = .next t →
    (StallIdle s → i ≠ .start → StallIdle t ∧ SameService s t) ∧
    (StallSilent s → (∀ b, i ≠ .taRxb b) → isRecord i = false → StallSilent t ∧ SameService s t) ∧
    (StallMidFrame s → (∀ b, i ≠ .taRxb b) → isRecord i = false → StallMidFrame t ∧ SameService s t)

/-- R124, R247, R248: with P2 and P3 a byte, alone or in a record, is lost only in a block that has stopped receiving. -/
def Obligations.PromptServiceLosesNoByte : Prop :=
  ∀ (x : Sensor) (i : Instr) (s t : State) (b : Byte), BlockInv s → P2 s i → P3 x s i → exec i s = .next t →
    .lost b ∈ newEvents s t → StallMismatch s ∨ ReceptionOver s

/-- R103 SETTLE ends: from a state of the invariant it reaches a state in which no notification is pending and the next task step would change nothing. -/
def Obligations.SettleReachesASettledState : Prop :=
  ∀ s : State, BlockInv s → ∃ t, settle s = .next t ∧ t.settled = true ∧ BlockInv t

/-! ## Views and ports -/

/-- R30, R191: the views of the published angle are its slices, and the degrees are the whole part plus 64ths. -/
def Obligations.AngleViews : Prop :=
  ∀ s : State, s.pubAngleQ6.toNat = 32768 * s.sFlag.toNat + s.angle15.toNat ∧
    s.pubAngleQ6.toNat = 64 * s.angleDegInt.toNat + s.angleDegFrac.toNat ∧
    degrees s.pubAngleQ6 = (s.angleDegInt.toNat : Rat) + (s.angleDegFrac.toNat : Rat) / 64 ∧
    (s.pubValid = false → s.publishedAngle = none) ∧ (s.pubValid = true → s.publishedAngle = some s.pubAngleQ6)

/-- R38: `angle_pub` pulses in the step of DANG and of no other single operation, and with it the port shows the new angle. That the pulse is read off the trace is the model's choice (log entry 17). -/
def Obligations.AnglePulseMarksDang : Prop :=
  ∀ (i : Instr) (s t : State), isRecord i = false → exec i s = .next t →
    (anglePub s t = true ↔ i = .dang) ∧
    (anglePub s t = true → t.outputs.angleValid = true ∧ t.outputs.dstat = 1 ∧ .pub t.outputs.angleQ6 ∈ newEvents s t) ∧
    (∀ q, .pub q ∈ newEvents s t → t.outputs.angleQ6 = q)

/-! ## Under the premises -/

/-- R243: in every schedule of XRX's own operations that meets P1, P2, P3 and P4, from a block that is not started, with a sensor whose answer matches: no byte is lost, no frame overruns, reception never ends, and once the block has settled every whole frame that arrived has been decoded. -/
def Obligations.EveryFrameIsDecodedUnderThePremises : Prop :=
  ∀ (x : Sensor) (is : List Instr) (s t : State), BlockInv s → LockStep s → s.link = .idle →
    x.descriptor.length = 7 → x.descriptor[6]? = some 0x82 → x.Delivers is →
    (∀ i ∈ is, ownStep i = true ∧ i ≠ .reset) →
    Along P1 is s → Along P2 is s → Along (P3 x) is s → P4 x.frames →
    runInstrs is s = .next t →
      (∀ b, .lost b ∉ newEvents s t) ∧ t.cntOvr = s.cntOvr ∧ t.cntHsbad = s.cntHsbad ∧
      (t.link ≠ .idle → t.rxa = true ∨ t.rxcPend = true) ∧
      (t.settled = true →
        Tallied s t
          ((x.frames.take (((is.flatMap received).length - 7) / 84)).map fun f => decodeFrame fun i => f.getD i 0))
end

