-- ==== Sys2Proof/Laws/Decode.lean ====
section
/-! SUPPORT. How the record table classifies (30_encoding.md R99), and small facts on the masks. -/

namespace Sys2Proof

theorem byte_and_ones (x : Byte) : x &&& 0xFF = x := by
  have h : (0xFF : Byte) = BitVec.allOnes 8 := by decide
  rw [h, BitVec.and_allOnes]

theorem byte_and_zero (x : Byte) : x &&& 0x00 = 0x00 := BitVec.and_zero

/-- A mask of zeros leaves zeros. -/
theorem mask_zeros (r : List Byte) : List.zipWith (· &&& ·) r (List.replicate r.length 0x00) =
    List.replicate r.length 0x00 := by
  induction r with
  | nil => rfl
  | cons x xs ih => simp only [List.length_cons, List.replicate_succ, List.zipWith_cons_cons, ih, byte_and_zero]

/-- A mask of ones leaves the record. -/
theorem mask_ones (r : List Byte) : List.zipWith (· &&& ·) r (List.replicate r.length 0xFF) = r := by
  induction r with
  | nil => rfl
  | cons x xs ih => simp only [List.length_cons, List.replicate_succ, List.zipWith_cons_cons, ih, byte_and_ones]

/-- Rows of another format are passed over; a row of this format is taken exactly when it matches (R99). -/
theorem find_row (fmt : Format) (r : List Byte) (row : RecordRow) (rows : List RecordRow) :
    ((row :: rows).find? fun w => decide (w.fmt = fmt) && w.matches r).map (·.cls) =
      if row.fmt = fmt ∧ List.zipWith (· &&& ·) r row.mask = row.bits then some row.cls
      else (rows.find? fun w => decide (w.fmt = fmt) && w.matches r).map (·.cls) := by
  by_cases h : row.fmt = fmt ∧ List.zipWith (· &&& ·) r row.mask = row.bits
  · have hp : (decide (row.fmt = fmt) && row.matches r) = true := by simp [RecordRow.matches, h.1, h.2]
    simp only [List.find?_cons, hp, if_pos h, Option.map_some]
  · have hp : (decide (row.fmt = fmt) && row.matches r) = false := by
      simpa [RecordRow.matches] using h
    simp only [List.find?_cons, hp, if_neg h]

/-- The one C9 record is the command. -/
theorem classify_c9 {r : List Byte} (h : r.length = 9) :
    classify .c9 r = if r = Config.cmdBytes then some .cmdXscan else none := by
  have h1 : List.zipWith (· &&& ·) r (List.replicate 9 0xFF) = r := h ▸ mask_ones r
  simp only [classify, recordRows, find_row, h1, reduceCtorEq, false_and, if_false, true_and, List.find?_nil,
    Option.map_none]
  rfl

/-- A D7 record is DESC_OK exactly when byte 6 is the echo value, DESC_BAD otherwise. -/
theorem classify_d7 {r : List Byte} (h : r.length = 7) :
    classify .d7 r = if descEchoOk r then some .descOk else some .descBad := by
  have h0 : List.zipWith (· &&& ·) r (List.replicate 7 0x00) = List.replicate 7 0x00 := h ▸ mask_zeros r
  have h1 : List.zipWith (· &&& ·) r (List.replicate 6 0x00 ++ [0xFF]) = List.replicate 6 0x00 ++ [0x82] ↔
      descEchoOk r = true := by
    match r, h with
    | [a, b, c, d, e, f, g], _ =>
      simp only [descEchoOk, List.replicate, List.cons_append, List.nil_append, List.zipWith_cons_cons,
        List.zipWith_nil_left, byte_and_ones, byte_and_zero]
      simp
  simp only [classify, recordRows, find_row, h0, h1, reduceCtorEq, false_and, if_false, true_and, if_true]

/-- An F84 record is FRAME_SYNCED exactly when its high nibbles are A and 5, FRAME_UNSYNCED otherwise. -/
theorem classify_f84 {r : List Byte} (h : r.length = 84) :
    classify .f84 r = if frameSyncOk r then some .frameSynced else some .frameUnsynced := by
  have h0 : List.zipWith (· &&& ·) r (List.replicate 84 0x00) = List.replicate 84 0x00 := h ▸ mask_zeros r
  have h1 : List.zipWith (· &&& ·) r ([0xF0, 0xF0] ++ List.replicate 82 0x00) =
      [0xA0, 0x50] ++ List.replicate 82 0x00 ↔ frameSyncOk r = true := by
    match r, h with
    | b0 :: b1 :: rest, h =>
      have hl : rest.length = 82 := by simpa using h
      have hz : List.zipWith (· &&& ·) rest (List.replicate 82 0x00) = List.replicate 82 0x00 := hl ▸ mask_zeros rest
      simp only [frameSyncOk, List.cons_append, List.nil_append, List.zipWith_cons_cons, hz, List.cons.injEq,
        and_true, List.getElem?_cons_zero, List.getElem?_cons_succ, Option.map_some, Bool.and_eq_true, beq_iff_eq,
        Option.some.injEq]
  simp only [classify, recordRows, find_row, h0, h1, reduceCtorEq, false_and, if_false, true_and, if_true]

/-- A record of its format's length is read whole. -/
theorem decodeRecord_append {fmt : Format} {r : List Byte} {cls : RecordClass} (rest : List Byte)
    (hl : r.length = fmt.length) (hc : classify fmt r = some cls) :
    decodeRecord fmt (r ++ rest) = .ok (cls.instr r, rest) := by
  have h1 : ¬ (r ++ rest).length < fmt.length := by simp only [List.length_append]; omega
  have h2 : (r ++ rest).take fmt.length = r := by rw [← hl]; simp
  have h3 : (r ++ rest).drop fmt.length = rest := by rw [← hl]; simp
  simp only [decodeRecord, if_neg h1, h2, h3, hc]

/-- What a record's decoding says of its bytes. -/
theorem decodeRecord_eq_ok {fmt : Format} {bytes left : List Byte} {i : Instr}
    (h : decodeRecord fmt bytes = .ok (i, left)) :
    ∃ r cls, bytes = r ++ left ∧ r.length = fmt.length ∧ classify fmt r = some cls ∧ i = cls.instr r := by
  unfold decodeRecord at h
  split at h
  · cases h
  · rename_i hl
    split at h
    · rename_i cls hc
      cases h
      exact ⟨bytes.take fmt.length, cls, (List.take_append_drop _ _).symm, by simp; omega, hc, rfl⟩
    · cases h

end Sys2Proof
end

