-- ==== Sys2Proof/Laws/State.lean ====
section
/-! SUPPORT. One lemma for each field of State and each named update of it (Machine/Ops.lean, Machine/Flags.lean): what the update leaves, and what it writes. -/

namespace Sys2Proof.Machine

section Updates

variable (s : State) (e : Event) (i : Instr) (d : Drop) (bytes : List Byte)

/-! ## emit -/

@[simp] theorem State.emit_pool : (s.emit e).pool = s.pool := rfl
@[simp] theorem State.emit_desc : (s.emit e).desc = s.desc := rfl
@[simp] theorem State.emit_link : (s.emit e).link = s.link := rfl
@[simp] theorem State.emit_ready : (s.emit e).ready = s.ready := rfl
@[simp] theorem State.emit_widx : (s.emit e).widx = s.widx := rfl
@[simp] theorem State.emit_ridx : (s.emit e).ridx = s.ridx := rfl
@[simp] theorem State.emit_tph : (s.emit e).tph = s.tph := rfl
@[simp] theorem State.emit_rxa : (s.emit e).rxa = s.rxa := rfl
@[simp] theorem State.emit_rxsp : (s.emit e).rxsp = s.rxsp := rfl
@[simp] theorem State.emit_rxbase : (s.emit e).rxbase = s.rxbase := rfl
@[simp] theorem State.emit_rxlen : (s.emit e).rxlen = s.rxlen := rfl
@[simp] theorem State.emit_rxcnt : (s.emit e).rxcnt = s.rxcnt := rfl
@[simp] theorem State.emit_rxcPend : (s.emit e).rxcPend = s.rxcPend := rfl
@[simp] theorem State.emit_pubAngleQ6 : (s.emit e).pubAngleQ6 = s.pubAngleQ6 := rfl
@[simp] theorem State.emit_pubValid : (s.emit e).pubValid = s.pubValid := rfl
@[simp] theorem State.emit_dstat : (s.emit e).dstat = s.dstat := rfl
@[simp] theorem State.emit_cntAcc : (s.emit e).cntAcc = s.cntAcc := rfl
@[simp] theorem State.emit_cntSync : (s.emit e).cntSync = s.cntSync := rfl
@[simp] theorem State.emit_cntCsum : (s.emit e).cntCsum = s.cntCsum := rfl
@[simp] theorem State.emit_cntOvr : (s.emit e).cntOvr = s.cntOvr := rfl
@[simp] theorem State.emit_cntHsbad : (s.emit e).cntHsbad = s.cntHsbad := rfl
@[simp] theorem State.emit_cfg : (s.emit e).cfg = s.cfg := rfl
@[simp] theorem State.emit_script : (s.emit e).script = s.script := rfl
@[simp] theorem State.emit_trace : (s.emit e).trace = s.trace ++ [e] := rfl
@[simp] theorem State.emit_shadow : (s.emit e).shadow = s.shadow := rfl
@[simp] theorem State.emit_freeIdx : (s.emit e).freeIdx = s.freeIdx := rfl

/-! ## log -/

@[simp] theorem State.log_pool : (s.log i).pool = s.pool := rfl
@[simp] theorem State.log_desc : (s.log i).desc = s.desc := rfl
@[simp] theorem State.log_link : (s.log i).link = s.link := rfl
@[simp] theorem State.log_ready : (s.log i).ready = s.ready := rfl
@[simp] theorem State.log_widx : (s.log i).widx = s.widx := rfl
@[simp] theorem State.log_ridx : (s.log i).ridx = s.ridx := rfl
@[simp] theorem State.log_tph : (s.log i).tph = s.tph := rfl
@[simp] theorem State.log_rxa : (s.log i).rxa = s.rxa := rfl
@[simp] theorem State.log_rxsp : (s.log i).rxsp = s.rxsp := rfl
@[simp] theorem State.log_rxbase : (s.log i).rxbase = s.rxbase := rfl
@[simp] theorem State.log_rxlen : (s.log i).rxlen = s.rxlen := rfl
@[simp] theorem State.log_rxcnt : (s.log i).rxcnt = s.rxcnt := rfl
@[simp] theorem State.log_rxcPend : (s.log i).rxcPend = s.rxcPend := rfl
@[simp] theorem State.log_pubAngleQ6 : (s.log i).pubAngleQ6 = s.pubAngleQ6 := rfl
@[simp] theorem State.log_pubValid : (s.log i).pubValid = s.pubValid := rfl
@[simp] theorem State.log_dstat : (s.log i).dstat = s.dstat := rfl
@[simp] theorem State.log_cntAcc : (s.log i).cntAcc = s.cntAcc := rfl
@[simp] theorem State.log_cntSync : (s.log i).cntSync = s.cntSync := rfl
@[simp] theorem State.log_cntCsum : (s.log i).cntCsum = s.cntCsum := rfl
@[simp] theorem State.log_cntOvr : (s.log i).cntOvr = s.cntOvr := rfl
@[simp] theorem State.log_cntHsbad : (s.log i).cntHsbad = s.cntHsbad := rfl
@[simp] theorem State.log_cfg : (s.log i).cfg = s.cfg := rfl
@[simp] theorem State.log_script : (s.log i).script = s.script := rfl
@[simp] theorem State.log_trace : (s.log i).trace = s.trace ++ [.line i] := rfl
@[simp] theorem State.log_shadow : (s.log i).shadow = s.shadow := rfl
@[simp] theorem State.log_freeIdx : (s.log i).freeIdx = s.freeIdx := rfl

/-! ## clearPend -/

@[simp] theorem State.clearPend_pool : (s.clearPend).pool = s.pool := rfl
@[simp] theorem State.clearPend_desc : (s.clearPend).desc = s.desc := rfl
@[simp] theorem State.clearPend_link : (s.clearPend).link = s.link := rfl
@[simp] theorem State.clearPend_ready : (s.clearPend).ready = s.ready := rfl
@[simp] theorem State.clearPend_widx : (s.clearPend).widx = s.widx := rfl
@[simp] theorem State.clearPend_ridx : (s.clearPend).ridx = s.ridx := rfl
@[simp] theorem State.clearPend_tph : (s.clearPend).tph = s.tph := rfl
@[simp] theorem State.clearPend_rxa : (s.clearPend).rxa = s.rxa := rfl
@[simp] theorem State.clearPend_rxsp : (s.clearPend).rxsp = s.rxsp := rfl
@[simp] theorem State.clearPend_rxbase : (s.clearPend).rxbase = s.rxbase := rfl
@[simp] theorem State.clearPend_rxlen : (s.clearPend).rxlen = s.rxlen := rfl
@[simp] theorem State.clearPend_rxcnt : (s.clearPend).rxcnt = s.rxcnt := rfl
@[simp] theorem State.clearPend_rxcPend : (s.clearPend).rxcPend = false := rfl
@[simp] theorem State.clearPend_pubAngleQ6 : (s.clearPend).pubAngleQ6 = s.pubAngleQ6 := rfl
@[simp] theorem State.clearPend_pubValid : (s.clearPend).pubValid = s.pubValid := rfl
@[simp] theorem State.clearPend_dstat : (s.clearPend).dstat = s.dstat := rfl
@[simp] theorem State.clearPend_cntAcc : (s.clearPend).cntAcc = s.cntAcc := rfl
@[simp] theorem State.clearPend_cntSync : (s.clearPend).cntSync = s.cntSync := rfl
@[simp] theorem State.clearPend_cntCsum : (s.clearPend).cntCsum = s.cntCsum := rfl
@[simp] theorem State.clearPend_cntOvr : (s.clearPend).cntOvr = s.cntOvr := rfl
@[simp] theorem State.clearPend_cntHsbad : (s.clearPend).cntHsbad = s.cntHsbad := rfl
@[simp] theorem State.clearPend_cfg : (s.clearPend).cfg = s.cfg := rfl
@[simp] theorem State.clearPend_script : (s.clearPend).script = s.script := rfl
@[simp] theorem State.clearPend_trace : (s.clearPend).trace = s.trace := rfl
@[simp] theorem State.clearPend_shadow : (s.clearPend).shadow = s.shadow := rfl
@[simp] theorem State.clearPend_freeIdx : (s.clearPend).freeIdx = s.freeIdx := rfl

/-! ## setReady -/

@[simp] theorem State.setReady_pool : (s.setReady).pool = s.pool := rfl
@[simp] theorem State.setReady_desc : (s.setReady).desc = s.desc := rfl
@[simp] theorem State.setReady_link : (s.setReady).link = s.link := rfl
@[simp] theorem State.setReady_ready : (s.setReady).ready = true := rfl
@[simp] theorem State.setReady_widx : (s.setReady).widx = s.widx := rfl
@[simp] theorem State.setReady_ridx : (s.setReady).ridx = s.ridx := rfl
@[simp] theorem State.setReady_tph : (s.setReady).tph = s.tph := rfl
@[simp] theorem State.setReady_rxa : (s.setReady).rxa = s.rxa := rfl
@[simp] theorem State.setReady_rxsp : (s.setReady).rxsp = s.rxsp := rfl
@[simp] theorem State.setReady_rxbase : (s.setReady).rxbase = s.rxbase := rfl
@[simp] theorem State.setReady_rxlen : (s.setReady).rxlen = s.rxlen := rfl
@[simp] theorem State.setReady_rxcnt : (s.setReady).rxcnt = s.rxcnt := rfl
@[simp] theorem State.setReady_rxcPend : (s.setReady).rxcPend = s.rxcPend := rfl
@[simp] theorem State.setReady_pubAngleQ6 : (s.setReady).pubAngleQ6 = s.pubAngleQ6 := rfl
@[simp] theorem State.setReady_pubValid : (s.setReady).pubValid = s.pubValid := rfl
@[simp] theorem State.setReady_dstat : (s.setReady).dstat = s.dstat := rfl
@[simp] theorem State.setReady_cntAcc : (s.setReady).cntAcc = s.cntAcc := rfl
@[simp] theorem State.setReady_cntSync : (s.setReady).cntSync = s.cntSync := rfl
@[simp] theorem State.setReady_cntCsum : (s.setReady).cntCsum = s.cntCsum := rfl
@[simp] theorem State.setReady_cntOvr : (s.setReady).cntOvr = s.cntOvr := rfl
@[simp] theorem State.setReady_cntHsbad : (s.setReady).cntHsbad = s.cntHsbad := rfl
@[simp] theorem State.setReady_cfg : (s.setReady).cfg = s.cfg := rfl
@[simp] theorem State.setReady_script : (s.setReady).script = s.script := rfl
@[simp] theorem State.setReady_trace : (s.setReady).trace = s.trace := rfl
@[simp] theorem State.setReady_shadow : (s.setReady).shadow = s.shadow := rfl
@[simp] theorem State.setReady_freeIdx : (s.setReady).freeIdx = s.freeIdx := rfl

/-! ## clearReady -/

@[simp] theorem State.clearReady_pool : (s.clearReady).pool = s.pool := rfl
@[simp] theorem State.clearReady_desc : (s.clearReady).desc = s.desc := rfl
@[simp] theorem State.clearReady_link : (s.clearReady).link = s.link := rfl
@[simp] theorem State.clearReady_ready : (s.clearReady).ready = false := rfl
@[simp] theorem State.clearReady_widx : (s.clearReady).widx = s.widx := rfl
@[simp] theorem State.clearReady_ridx : (s.clearReady).ridx = s.ridx := rfl
@[simp] theorem State.clearReady_tph : (s.clearReady).tph = s.tph := rfl
@[simp] theorem State.clearReady_rxa : (s.clearReady).rxa = s.rxa := rfl
@[simp] theorem State.clearReady_rxsp : (s.clearReady).rxsp = s.rxsp := rfl
@[simp] theorem State.clearReady_rxbase : (s.clearReady).rxbase = s.rxbase := rfl
@[simp] theorem State.clearReady_rxlen : (s.clearReady).rxlen = s.rxlen := rfl
@[simp] theorem State.clearReady_rxcnt : (s.clearReady).rxcnt = s.rxcnt := rfl
@[simp] theorem State.clearReady_rxcPend : (s.clearReady).rxcPend = s.rxcPend := rfl
@[simp] theorem State.clearReady_pubAngleQ6 : (s.clearReady).pubAngleQ6 = s.pubAngleQ6 := rfl
@[simp] theorem State.clearReady_pubValid : (s.clearReady).pubValid = s.pubValid := rfl
@[simp] theorem State.clearReady_dstat : (s.clearReady).dstat = s.dstat := rfl
@[simp] theorem State.clearReady_cntAcc : (s.clearReady).cntAcc = s.cntAcc := rfl
@[simp] theorem State.clearReady_cntSync : (s.clearReady).cntSync = s.cntSync := rfl
@[simp] theorem State.clearReady_cntCsum : (s.clearReady).cntCsum = s.cntCsum := rfl
@[simp] theorem State.clearReady_cntOvr : (s.clearReady).cntOvr = s.cntOvr := rfl
@[simp] theorem State.clearReady_cntHsbad : (s.clearReady).cntHsbad = s.cntHsbad := rfl
@[simp] theorem State.clearReady_cfg : (s.clearReady).cfg = s.cfg := rfl
@[simp] theorem State.clearReady_script : (s.clearReady).script = s.script := rfl
@[simp] theorem State.clearReady_trace : (s.clearReady).trace = s.trace := rfl
@[simp] theorem State.clearReady_shadow : (s.clearReady).shadow = s.shadow := rfl
@[simp] theorem State.clearReady_freeIdx : (s.clearReady).freeIdx = s.freeIdx := rfl

/-! ## complete -/

@[simp] theorem State.complete_pool : (s.complete).pool = s.pool := rfl
@[simp] theorem State.complete_desc : (s.complete).desc = s.desc := rfl
@[simp] theorem State.complete_link : (s.complete).link = s.link := rfl
@[simp] theorem State.complete_ready : (s.complete).ready = s.ready := rfl
@[simp] theorem State.complete_widx : (s.complete).widx = s.widx := rfl
@[simp] theorem State.complete_ridx : (s.complete).ridx = s.ridx := rfl
@[simp] theorem State.complete_tph : (s.complete).tph = s.tph := rfl
@[simp] theorem State.complete_rxa : (s.complete).rxa = false := rfl
@[simp] theorem State.complete_rxsp : (s.complete).rxsp = s.rxsp := rfl
@[simp] theorem State.complete_rxbase : (s.complete).rxbase = s.rxbase := rfl
@[simp] theorem State.complete_rxlen : (s.complete).rxlen = s.rxlen := rfl
@[simp] theorem State.complete_rxcnt : (s.complete).rxcnt = s.rxcnt := rfl
@[simp] theorem State.complete_rxcPend : (s.complete).rxcPend = true := rfl
@[simp] theorem State.complete_pubAngleQ6 : (s.complete).pubAngleQ6 = s.pubAngleQ6 := rfl
@[simp] theorem State.complete_pubValid : (s.complete).pubValid = s.pubValid := rfl
@[simp] theorem State.complete_dstat : (s.complete).dstat = s.dstat := rfl
@[simp] theorem State.complete_cntAcc : (s.complete).cntAcc = s.cntAcc := rfl
@[simp] theorem State.complete_cntSync : (s.complete).cntSync = s.cntSync := rfl
@[simp] theorem State.complete_cntCsum : (s.complete).cntCsum = s.cntCsum := rfl
@[simp] theorem State.complete_cntOvr : (s.complete).cntOvr = s.cntOvr := rfl
@[simp] theorem State.complete_cntHsbad : (s.complete).cntHsbad = s.cntHsbad := rfl
@[simp] theorem State.complete_cfg : (s.complete).cfg = s.cfg := rfl
@[simp] theorem State.complete_script : (s.complete).script = s.script := rfl
@[simp] theorem State.complete_trace : (s.complete).trace = s.trace := rfl
@[simp] theorem State.complete_shadow : (s.complete).shadow = s.shadow := rfl
@[simp] theorem State.complete_freeIdx : (s.complete).freeIdx = s.freeIdx := rfl

/-! ## countAccept -/

@[simp] theorem State.countAccept_pool : (s.countAccept).pool = s.pool := rfl
@[simp] theorem State.countAccept_desc : (s.countAccept).desc = s.desc := rfl
@[simp] theorem State.countAccept_link : (s.countAccept).link = s.link := rfl
@[simp] theorem State.countAccept_ready : (s.countAccept).ready = s.ready := rfl
@[simp] theorem State.countAccept_widx : (s.countAccept).widx = s.widx := rfl
@[simp] theorem State.countAccept_ridx : (s.countAccept).ridx = s.ridx := rfl
@[simp] theorem State.countAccept_tph : (s.countAccept).tph = s.tph := rfl
@[simp] theorem State.countAccept_rxa : (s.countAccept).rxa = s.rxa := rfl
@[simp] theorem State.countAccept_rxsp : (s.countAccept).rxsp = s.rxsp := rfl
@[simp] theorem State.countAccept_rxbase : (s.countAccept).rxbase = s.rxbase := rfl
@[simp] theorem State.countAccept_rxlen : (s.countAccept).rxlen = s.rxlen := rfl
@[simp] theorem State.countAccept_rxcnt : (s.countAccept).rxcnt = s.rxcnt := rfl
@[simp] theorem State.countAccept_rxcPend : (s.countAccept).rxcPend = s.rxcPend := rfl
@[simp] theorem State.countAccept_pubAngleQ6 : (s.countAccept).pubAngleQ6 = s.pubAngleQ6 := rfl
@[simp] theorem State.countAccept_pubValid : (s.countAccept).pubValid = s.pubValid := rfl
@[simp] theorem State.countAccept_dstat : (s.countAccept).dstat = .accepted := rfl
@[simp] theorem State.countAccept_cntAcc : (s.countAccept).cntAcc = bump s.cfg s.cntAcc := rfl
@[simp] theorem State.countAccept_cntSync : (s.countAccept).cntSync = s.cntSync := rfl
@[simp] theorem State.countAccept_cntCsum : (s.countAccept).cntCsum = s.cntCsum := rfl
@[simp] theorem State.countAccept_cntOvr : (s.countAccept).cntOvr = s.cntOvr := rfl
@[simp] theorem State.countAccept_cntHsbad : (s.countAccept).cntHsbad = s.cntHsbad := rfl
@[simp] theorem State.countAccept_cfg : (s.countAccept).cfg = s.cfg := rfl
@[simp] theorem State.countAccept_script : (s.countAccept).script = s.script := rfl
@[simp] theorem State.countAccept_trace : (s.countAccept).trace = s.trace := rfl
@[simp] theorem State.countAccept_shadow : (s.countAccept).shadow = s.shadow := rfl
@[simp] theorem State.countAccept_freeIdx : (s.countAccept).freeIdx = s.freeIdx := rfl

/-! ## sent -/

@[simp] theorem State.sent_pool : (sendBytes bytes s).pool = s.pool := rfl
@[simp] theorem State.sent_desc : (sendBytes bytes s).desc = s.desc := rfl
@[simp] theorem State.sent_link : (sendBytes bytes s).link = s.link := rfl
@[simp] theorem State.sent_ready : (sendBytes bytes s).ready = s.ready := rfl
@[simp] theorem State.sent_widx : (sendBytes bytes s).widx = s.widx := rfl
@[simp] theorem State.sent_ridx : (sendBytes bytes s).ridx = s.ridx := rfl
@[simp] theorem State.sent_tph : (sendBytes bytes s).tph = s.tph := rfl
@[simp] theorem State.sent_rxa : (sendBytes bytes s).rxa = s.rxa := rfl
@[simp] theorem State.sent_rxsp : (sendBytes bytes s).rxsp = s.rxsp := rfl
@[simp] theorem State.sent_rxbase : (sendBytes bytes s).rxbase = s.rxbase := rfl
@[simp] theorem State.sent_rxlen : (sendBytes bytes s).rxlen = s.rxlen := rfl
@[simp] theorem State.sent_rxcnt : (sendBytes bytes s).rxcnt = s.rxcnt := rfl
@[simp] theorem State.sent_rxcPend : (sendBytes bytes s).rxcPend = s.rxcPend := rfl
@[simp] theorem State.sent_pubAngleQ6 : (sendBytes bytes s).pubAngleQ6 = s.pubAngleQ6 := rfl
@[simp] theorem State.sent_pubValid : (sendBytes bytes s).pubValid = s.pubValid := rfl
@[simp] theorem State.sent_dstat : (sendBytes bytes s).dstat = s.dstat := rfl
@[simp] theorem State.sent_cntAcc : (sendBytes bytes s).cntAcc = s.cntAcc := rfl
@[simp] theorem State.sent_cntSync : (sendBytes bytes s).cntSync = s.cntSync := rfl
@[simp] theorem State.sent_cntCsum : (sendBytes bytes s).cntCsum = s.cntCsum := rfl
@[simp] theorem State.sent_cntOvr : (sendBytes bytes s).cntOvr = s.cntOvr := rfl
@[simp] theorem State.sent_cntHsbad : (sendBytes bytes s).cntHsbad = s.cntHsbad := rfl
@[simp] theorem State.sent_cfg : (sendBytes bytes s).cfg = s.cfg := rfl
@[simp] theorem State.sent_script : (sendBytes bytes s).script = s.script := rfl
@[simp] theorem State.sent_trace : (sendBytes bytes s).trace = s.trace ++ [.tx bytes] := rfl
@[simp] theorem State.sent_shadow : (sendBytes bytes s).shadow = s.shadow := rfl
@[simp] theorem State.sent_freeIdx : (sendBytes bytes s).freeIdx = s.freeIdx := rfl

/-! ## raiseDrop -/

@[simp] theorem State.raiseDrop_pool : (s.raiseDrop d).pool = s.pool := by cases d <;> rfl
@[simp] theorem State.raiseDrop_desc : (s.raiseDrop d).desc = s.desc := by cases d <;> rfl
@[simp] theorem State.raiseDrop_link : (s.raiseDrop d).link = s.link := by cases d <;> rfl
@[simp] theorem State.raiseDrop_ready : (s.raiseDrop d).ready = s.ready := by cases d <;> rfl
@[simp] theorem State.raiseDrop_widx : (s.raiseDrop d).widx = s.widx := by cases d <;> rfl
@[simp] theorem State.raiseDrop_ridx : (s.raiseDrop d).ridx = s.ridx := by cases d <;> rfl
@[simp] theorem State.raiseDrop_tph : (s.raiseDrop d).tph = s.tph := by cases d <;> rfl
@[simp] theorem State.raiseDrop_rxa : (s.raiseDrop d).rxa = s.rxa := by cases d <;> rfl
@[simp] theorem State.raiseDrop_rxsp : (s.raiseDrop d).rxsp = s.rxsp := by cases d <;> rfl
@[simp] theorem State.raiseDrop_rxbase : (s.raiseDrop d).rxbase = s.rxbase := by cases d <;> rfl
@[simp] theorem State.raiseDrop_rxlen : (s.raiseDrop d).rxlen = s.rxlen := by cases d <;> rfl
@[simp] theorem State.raiseDrop_rxcnt : (s.raiseDrop d).rxcnt = s.rxcnt := by cases d <;> rfl
@[simp] theorem State.raiseDrop_rxcPend : (s.raiseDrop d).rxcPend = s.rxcPend := by cases d <;> rfl
@[simp] theorem State.raiseDrop_pubAngleQ6 : (s.raiseDrop d).pubAngleQ6 = s.pubAngleQ6 := by cases d <;> rfl
@[simp] theorem State.raiseDrop_pubValid : (s.raiseDrop d).pubValid = s.pubValid := by cases d <;> rfl
@[simp] theorem State.raiseDrop_cntAcc : (s.raiseDrop d).cntAcc = s.cntAcc := by cases d <;> rfl
@[simp] theorem State.raiseDrop_cfg : (s.raiseDrop d).cfg = s.cfg := by cases d <;> rfl
@[simp] theorem State.raiseDrop_script : (s.raiseDrop d).script = s.script := by cases d <;> rfl
@[simp] theorem State.raiseDrop_trace : (s.raiseDrop d).trace = s.trace ++ [.drop d] := by cases d <;> rfl
@[simp] theorem State.raiseDrop_shadow : (s.raiseDrop d).shadow = s.shadow := by cases d <;> rfl
@[simp] theorem State.raiseDrop_freeIdx : (s.raiseDrop d).freeIdx = s.freeIdx := by cases d <;> rfl

/-! ## The counters and DSTAT of a drop (R210, R211) -/

@[simp] theorem State.raiseDrop_hsMismatch_cntHsbad (x : Byte) :
    (s.raiseDrop (.hsMismatch x)).cntHsbad = bump s.cfg s.cntHsbad := rfl
@[simp] theorem State.raiseDrop_hsMismatch_cntOvr (x : Byte) :
    (s.raiseDrop (.hsMismatch x)).cntOvr = s.cntOvr := rfl
@[simp] theorem State.raiseDrop_hsMismatch_cntSync (x : Byte) :
    (s.raiseDrop (.hsMismatch x)).cntSync = s.cntSync := rfl
@[simp] theorem State.raiseDrop_hsMismatch_cntCsum (x : Byte) :
    (s.raiseDrop (.hsMismatch x)).cntCsum = s.cntCsum := rfl
@[simp] theorem State.raiseDrop_hsMismatch_dstat (x : Byte) :
    (s.raiseDrop (.hsMismatch x)).dstat = s.dstat := rfl
@[simp] theorem State.raiseDrop_overrun_cntHsbad (x : BitVec 8) :
    (s.raiseDrop (.overrun x)).cntHsbad = s.cntHsbad := rfl
@[simp] theorem State.raiseDrop_overrun_cntOvr (x : BitVec 8) :
    (s.raiseDrop (.overrun x)).cntOvr = bump s.cfg s.cntOvr := rfl
@[simp] theorem State.raiseDrop_overrun_cntSync (x : BitVec 8) :
    (s.raiseDrop (.overrun x)).cntSync = s.cntSync := rfl
@[simp] theorem State.raiseDrop_overrun_cntCsum (x : BitVec 8) :
    (s.raiseDrop (.overrun x)).cntCsum = s.cntCsum := rfl
@[simp] theorem State.raiseDrop_overrun_dstat (x : BitVec 8) :
    (s.raiseDrop (.overrun x)).dstat = s.dstat := rfl
@[simp] theorem State.raiseDrop_syncFail_cntHsbad (x : Byte) :
    (s.raiseDrop (.syncFail x)).cntHsbad = s.cntHsbad := rfl
@[simp] theorem State.raiseDrop_syncFail_cntOvr (x : Byte) :
    (s.raiseDrop (.syncFail x)).cntOvr = s.cntOvr := rfl
@[simp] theorem State.raiseDrop_syncFail_cntSync (x : Byte) :
    (s.raiseDrop (.syncFail x)).cntSync = bump s.cfg s.cntSync := rfl
@[simp] theorem State.raiseDrop_syncFail_cntCsum (x : Byte) :
    (s.raiseDrop (.syncFail x)).cntCsum = s.cntCsum := rfl
@[simp] theorem State.raiseDrop_syncFail_dstat (x : Byte) :
    (s.raiseDrop (.syncFail x)).dstat = .syncFail := rfl
@[simp] theorem State.raiseDrop_csumFail_cntHsbad (x y : Byte) :
    (s.raiseDrop (.csumFail x y)).cntHsbad = s.cntHsbad := rfl
@[simp] theorem State.raiseDrop_csumFail_cntOvr (x y : Byte) :
    (s.raiseDrop (.csumFail x y)).cntOvr = s.cntOvr := rfl
@[simp] theorem State.raiseDrop_csumFail_cntSync (x y : Byte) :
    (s.raiseDrop (.csumFail x y)).cntSync = s.cntSync := rfl
@[simp] theorem State.raiseDrop_csumFail_cntCsum (x y : Byte) :
    (s.raiseDrop (.csumFail x y)).cntCsum = bump s.cfg s.cntCsum := rfl
@[simp] theorem State.raiseDrop_csumFail_dstat (x y : Byte) :
    (s.raiseDrop (.csumFail x y)).dstat = .csumFail := rfl

end Updates

end Sys2Proof.Machine
end

