-- ==== Sys2Proof/Laws/Ops.lean ====
section
/-! SUPPORT. What each shared operation of Machine/Ops.lean can do: memory, the two requests, the landing of a byte, the decoder's reads where no byte is raced. -/

namespace Sys2Proof.Machine

/-! ## andThen -/

@[simp] theorem andThen_next (s : State) (f : State → Result) : andThen (.next s) f = f s := rfl
@[simp] theorem andThen_fault (e : Fault) (f : State → Result) : andThen (.fault e) f = .fault e := rfl
@[simp] theorem andThen_refused (e : Refusal) (f : State → Result) : andThen (.refused e) f = .refused e := rfl

/-- A sequence answers a next state exactly when both parts do. -/
theorem andThen_eq_next {r : Result} {f : State → Result} {t : State} :
    andThen r f = .next t ↔ ∃ u, r = .next u ∧ f u = .next t := by
  cases r <;> simp [andThen]

/-! ## Memory -/

@[simp] theorem Memory.read_nil (a : Nat) : Memory.read [] a = none := rfl

/-- A read after a write of the same offset gives the byte written. -/
@[simp] theorem Memory.read_write_same (m : Memory) (a : Nat) (b : Byte) :
    Memory.read (Memory.write m a b) a = some b := by
  induction m with
  | nil => simp [Memory.write, Memory.read]
  | cons c rest ih =>
    obtain ⟨k, v⟩ := c
    simp only [Memory.write]
    split
    · simp [Memory.read]
    · split
      · simp [Memory.read]
      · rename_i h1 h2
        simp [Memory.read, ih, show k ≠ a from fun h => h2 h.symm]

/-- A write leaves every other offset alone. -/
theorem Memory.read_write_other (m : Memory) {a x : Nat} (b : Byte) (h : x ≠ a) :
    Memory.read (Memory.write m a b) x = Memory.read m x := by
  induction m with
  | nil => simp [Memory.write, Memory.read, h.symm]
  | cons c rest ih =>
    obtain ⟨k, v⟩ := c
    simp only [Memory.write]
    split
    · simp [Memory.read, h.symm]
    · split
      · rename_i h2
        subst h2
        simp [Memory.read, h.symm]
      · simp [Memory.read, ih]

theorem Memory.read_write (m : Memory) (a x : Nat) (b : Byte) :
    Memory.read (Memory.write m a b) x = if x = a then some b else Memory.read m x := by
  split
  · rename_i h; subst h; simp
  · rename_i h; exact Memory.read_write_other m b h

/-- The offsets listed after a write: the old ones and the one written. -/
theorem Memory.mem_write {m : Memory} {a : Nat} {b : Byte} {c : Host.Cell} (h : c ∈ Memory.write m a b) :
    c = (a, b) ∨ c ∈ m := by
  induction m with
  | nil => simpa [Memory.write] using h
  | cons d rest ih =>
    obtain ⟨k, v⟩ := d
    simp only [Memory.write] at h
    split at h
    · simpa using h
    · split at h
      · simp only [List.mem_cons] at h ⊢
        tauto
      · simp only [List.mem_cons] at h ⊢
        rcases h with h | h
        · exact .inr (.inl h)
        · rcases ih h with h | h
          · exact .inl h
          · exact .inr (.inr h)

/-- A write keeps the canonical form. -/
theorem Memory.wf_write {m : Memory} (h : Memory.wf m) (a : Nat) (b : Byte) : Memory.wf (Memory.write m a b) := by
  induction m with
  | nil => simp [Memory.write, Memory.wf]
  | cons d rest ih =>
    obtain ⟨k, v⟩ := d
    have hrest : Memory.wf rest := List.Pairwise.of_cons h
    have hk : ∀ c ∈ rest, k < c.1 := fun c hc => List.rel_of_pairwise_cons h hc
    simp only [Memory.write]
    split
    · rename_i hlt
      refine List.Pairwise.cons ?_ h
      intro c hc
      simp only [List.mem_cons] at hc
      rcases hc with rfl | hc
      · exact hlt
      · exact Nat.lt_trans hlt (hk c hc)
    · split
      · rename_i heq
        subst heq
        exact List.Pairwise.cons hk hrest
      · rename_i h1 h2
        refine List.Pairwise.cons ?_ (ih hrest)
        intro c hc
        rcases Memory.mem_write hc with rfl | hc
        · simp only; omega
        · exact hk c hc

/-- Reset memory is canonical. -/
theorem Memory.wf_reset : Memory.wf State.reset.pool ∧ Memory.wf State.reset.desc := by decide

/-! ## The requests of the Transport Adapter -/

/-- TA.ARM answers a next state only where nothing is armed, and then exactly this one. -/
theorem armReceive_eq_next {space : Space} {base : BitVec 8} {len : BitVec 7} {s t : State} :
    armReceive space base len s = .next t ↔
      s.rxa = false ∧ t = { s with rxa := true, rxsp := space, rxbase := base, rxlen := len, rxcnt := 0,
                                   trace := s.trace ++ [.arm space base len] } := by
  unfold armReceive
  cases s.rxa <;> simp [State.emit, eq_comm]

theorem armReceive_unarmed {s : State} (h : s.rxa = false) (space : Space) (base : BitVec 8) (len : BitVec 7) :
    armReceive space base len s =
      .next { s with rxa := true, rxsp := space, rxbase := base, rxlen := len, rxcnt := 0,
                     trace := s.trace ++ [.arm space base len] } :=
  armReceive_eq_next.2 ⟨h, rfl⟩

theorem armReceive_armed {s : State} (h : s.rxa = true) (space : Space) (base : BitVec 8) (len : BitVec 7) :
    armReceive space base len s = .refused .armWhileArmed := by
  simp [armReceive, h]

/-! ## The landing of a byte -/

theorem landByte_unarmed {s : State} (h : s.rxa = false) (b : Byte) :
    landByte b s = .next { s with trace := s.trace ++ [.lost b] } := by
  simp [landByte, h, State.emit]

/-- Every field but RXCNT, RXA and RXC_PEND is as before the count. -/
theorem advanceReceive_eq (s : State) :
    advanceReceive s = { s with
      rxcnt := s.rxcnt + 1
      rxa := if s.rxcnt + 1 = s.rxlen then false else s.rxa
      rxcPend := if s.rxcnt + 1 = s.rxlen then true else s.rxcPend } := by
  unfold advanceReceive State.complete
  split <;> simp_all

theorem landByte_pool {s : State} (b : Byte) (h : s.rxa = true) (hs : s.rxsp = .pool)
    (ha : s.rxbase.toNat + s.rxcnt.toNat < 168) :
    landByte b s = .next (advanceReceive { s with
      pool := Memory.write s.pool (s.rxbase.toNat + s.rxcnt.toNat) b
      shadow := if s.tears (s.rxbase.toNat + s.rxcnt.toNat) then
          (s.rxbase.toNat + s.rxcnt.toNat, Memory.read s.pool (s.rxbase.toNat + s.rxcnt.toNat)) :: s.shadow
        else s.shadow }) := by
  simp [landByte, h, hs, adapterOffset, writePool, Config.poolLen, ha]

theorem landByte_desc {s : State} (b : Byte) (h : s.rxa = true) (hs : s.rxsp = .desc) (ha : s.rxcnt.toNat < 7) :
    landByte b s = .next (advanceReceive { s with desc := Memory.write s.desc s.rxcnt.toNat b }) := by
  simp [landByte, h, hs, adapterOffset, writeDesc, Config.descLen, ha]

/-! ## The decoder's reads -/

/-- R246: a pool write falls on the buffer under decode exactly in these phases and at these offsets. -/
theorem tears_iff (s : State) (a : Nat) : s.tears a = true ↔
    (s.tph = .dSync ∨ s.tph = .dCsum ∨ s.tph = .dAng) ∧ s.ridx.toNat ≤ a ∧ a < s.ridx.toNat + 84 := by
  unfold State.tears Config.frameLen
  cases s.tph <;> simp [Phase.reads]

/-- Where nothing was overwritten under the decode, a read returns the byte of the pool and changes nothing. -/
theorem readPool_unraced {s : State} {a : Nat} (h : ∀ e ∈ s.shadow, e.1 ≠ a) :
    s.readPool a = (Memory.read s.pool a, s) := by
  have h0 : s.shadow.filter (fun e => e.1 == a) = [] := by
    simp only [List.filter_eq_nil_iff, beq_iff_eq]
    exact h
  simp [State.readPool, State.candidates, h0]

/-- A read returns one of its candidates and changes at most the free-value index. -/
theorem readPool_candidate (s : State) (a : Nat) :
    (s.readPool a).1 ∈ s.candidates a ∧ ∃ n, (s.readPool a).2 = { s with freeIdx := n } := by
  unfold State.readPool
  have hc : s.candidates a = Memory.read s.pool a :: (s.shadow.filter fun e => e.1 == a).map (·.2) := rfl
  generalize s.candidates a = cs at hc
  match cs, hc with
  | [only], _ => exact ⟨by simp, s.freeIdx, rfl⟩
  | first :: second :: more, _ =>
    refine ⟨?_, s.freeIdx + 1, rfl⟩
    have hlt : Config.racePick s.freeIdx % (more.length + 2) < (first :: second :: more).length := by
      have h := Nat.mod_lt (Config.racePick s.freeIdx) (Nat.succ_pos (more.length + 1))
      simpa using h
    simp only [List.getD_eq_getElem?_getD, List.getElem?_eq_getElem hlt, Option.getD_some]
    exact List.getElem_mem hlt

theorem withFrameByte_unraced {s : State} {i : Nat} {b : Byte} (k : Byte → State → Result)
    (hs : ∀ e ∈ s.shadow, e.1 ≠ s.ridx.toNat + i) (ha : s.ridx.toNat + i < 168)
    (hb : Memory.read s.pool (s.ridx.toNat + i) = some b) : withFrameByte i s k = k b s := by
  simp [withFrameByte, decoderOffset, Config.poolLen, ha, readPool_unraced hs, hb]

/-- Every read of the decoder that does not fault goes on with one of the candidates. -/
theorem withFrameByte_candidate {s : State} {i : Nat} (k : Byte → State → Result)
    (ha : s.ridx.toNat + i < 168) (hc : ∀ c ∈ s.candidates (s.ridx.toNat + i), c.isSome = true) :
    ∃ b n, some b ∈ s.candidates (s.ridx.toNat + i) ∧
      withFrameByte i s k = k b { s with freeIdx := n } := by
  obtain ⟨hmem, n, hn⟩ := readPool_candidate s (s.ridx.toNat + i)
  have hsome := hc _ hmem
  obtain ⟨b, hb⟩ := Option.isSome_iff_exists.1 hsome
  refine ⟨b, n, hb ▸ hmem, ?_⟩
  have hpair : s.readPool (s.ridx.toNat + i) = (some b, { s with freeIdx := n }) := by
    rw [← hb, ← hn]
  simp [withFrameByte, decoderOffset, Config.poolLen, ha, hpair]

/-- A read that goes on goes on with some byte and changes at most the free-value index. -/
theorem withFrameByte_eq_next {s t : State} {i : Nat} {k : Byte → State → Result}
    (h : withFrameByte i s k = .next t) :
    ∃ b n, some b ∈ s.candidates (s.ridx.toNat + i) ∧ k b { s with freeIdx := n } = .next t := by
  unfold withFrameByte decoderOffset at h
  obtain ⟨hmem, n, hn⟩ := readPool_candidate s (s.ridx.toNat + i)
  split at h
  · split at h
    · rename_i b u hp
      rw [hp] at hmem hn
      exact ⟨b, n, hmem, hn ▸ h⟩
    · cases h
  · cases h

/-- The free-value index plays no part in what a read may return. -/
@[simp] theorem candidates_freeIdx (s : State) (n a : Nat) :
    ({ s with freeIdx := n } : State).candidates a = s.candidates a := rfl

/-- The running XOR that goes on changes at most the free-value index. -/
theorem withXor_eq_next {k : Byte → State → Result} {t : State} (n : Nat) :
    ∀ (i : Nat) (acc : Byte) (s : State), withXor n i acc s k = .next t →
      ∃ acc' m, k acc' { s with freeIdx := m } = .next t := by
  induction n with
  | zero => intro i acc s h; exact ⟨acc, s.freeIdx, h⟩
  | succ n ih =>
    intro i acc s h
    obtain ⟨b, m, -, hb⟩ := withFrameByte_eq_next h
    obtain ⟨acc', m', h'⟩ := ih (i + 1) (acc ^^^ b) _ hb
    exact ⟨acc', m', h'⟩

/-- The running XOR over readable bytes goes on with the fold of one candidate for each byte. -/
theorem withXor_candidate (k : Byte → State → Result) (n : Nat) :
    ∀ (i : Nat) (acc : Byte) (s : State),
      (∀ j, i ≤ j → j < i + n → s.ridx.toNat + j < 168 ∧ ∀ c ∈ s.candidates (s.ridx.toNat + j), c.isSome = true) →
      ∃ (g : Nat → Byte) (m : Nat), (∀ j, i ≤ j → j < i + n → some (g j) ∈ s.candidates (s.ridx.toNat + j)) ∧
        withXor n i acc s k = k ((List.range' i n).foldl (fun a j => a ^^^ g j) acc) { s with freeIdx := m } := by
  induction n with
  | zero => intro i acc s _; exact ⟨fun _ => 0, s.freeIdx, fun j h1 h2 => by omega, rfl⟩
  | succ n ih =>
    intro i acc s h
    obtain ⟨h1, h2⟩ := h i (Nat.le_refl _) (by omega)
    obtain ⟨b, m, hb, hk⟩ := withFrameByte_candidate (fun b t => withXor n (i + 1) (acc ^^^ b) t k) h1 h2
    obtain ⟨g, m', hg, hk'⟩ := ih (i + 1) (acc ^^^ b) { s with freeIdx := m } fun j hj hj' => h j (by omega) (by omega)
    refine ⟨fun j => if j = i then b else g j, m', ?_, ?_⟩
    · intro j hj hj'
      by_cases hji : j = i
      · subst hji; simpa using hb
      · simpa [hji] using hg j (by omega) (by omega)
    · simp only [withXor, hk, hk', List.range'_succ, List.foldl_cons, if_true]
      congr 1
      refine List.foldl_ext _ _ _ fun a j hj => ?_
      have hne : j ≠ i := by
        have := List.mem_range'_1.1 hj
        omega
      simp [hne]

/-- The running XOR of an unraced buffer is the fold of its bytes. -/
theorem withXor_unraced {s : State} (f : Nat → Byte) (k : Byte → State → Result) (n : Nat) :
    ∀ (i : Nat) (acc : Byte), (∀ j, i ≤ j → j < i + n →
        (∀ e ∈ s.shadow, e.1 ≠ s.ridx.toNat + j) ∧ s.ridx.toNat + j < 168 ∧
        Memory.read s.pool (s.ridx.toNat + j) = some (f j)) →
      withXor n i acc s k = k ((List.range' i n).foldl (fun a j => a ^^^ f j) acc) s := by
  induction n with
  | zero => intro i acc _; simp [withXor]
  | succ n ih =>
    intro i acc h
    obtain ⟨h1, h2, h3⟩ := h i (Nat.le_refl _) (by omega)
    simp only [withXor, List.range'_succ, List.foldl_cons]
    rw [withFrameByte_unraced _ h1 h2 h3]
    exact ih (i + 1) (acc ^^^ f i) (fun j hj hj' => h j (by omega) (by omega))

/-! ## The read of DESC[6] -/

/-- The read of DESC[6] goes on exactly where it holds a value. -/
theorem withEcho_eq_next {s t : State} {k : Byte → Result} :
    withEcho s k = .next t ↔ ∃ b, Memory.read s.desc 6 = some b ∧ k b = .next t := by
  unfold withEcho Config.echoOff
  cases Memory.read s.desc 6 <;> simp

theorem withEcho_some {s : State} {b : Byte} (h : Memory.read s.desc 6 = some b) (k : Byte → Result) :
    withEcho s k = k b := by
  simp [withEcho, Config.echoOff, h]

end Sys2Proof.Machine
end

