-- ==== Sys2Proof/Laws/Records.lean ====
section
/-! SUPPORT. What a record can do: it is a sequence of TA.RXB, RXC and decoder steps, so what each of these keeps every record keeps. -/

namespace Sys2Proof.Machine

/-- What every byte keeps, a run of bytes keeps. -/
theorem landAll_keeps {P : State → Prop} (hb : ∀ b s t, P s → execTaRxb b s = .next t → P t)
    (bytes : List Byte) : ∀ s t, P s → landAll bytes s = .next t → P t := by
  induction bytes with
  | nil => intro s t hs h; cases h; exact hs
  | cons b rest ih =>
    intro s t hs h
    obtain ⟨u, hu, h'⟩ := andThen_eq_next.1 h
    exact ih u t (hb b s u hs hu) h'

theorem serveIfPending_keeps {P : State → Prop} (hr : ∀ s t, P s → execRxc s = .next t → P t) {s t : State}
    (hs : P s) (h : serveIfPending s = .next t) : P t := by
  unfold serveIfPending at h
  split at h
  · exact hr s t hs h
  · cases h; exact hs

theorem whenPhase_keeps {P : State → Prop} {p : Phase} {f : State → Result}
    (hf : ∀ s t, P s → f s = .next t → P t) {s t : State} (hs : P s) (h : whenPhase p f s = .next t) : P t := by
  unfold whenPhase at h
  split at h
  · exact hf s t hs h
  · cases h; exact hs

/-- What every decoder operation keeps, a whole DECODE keeps. -/
theorem decodeOnce_keeps {P : State → Prop}
    (h1 : ∀ s t, P s → execDpoll s = .next t → P t) (h2 : ∀ s t, P s → execDclr s = .next t → P t)
    (h3 : ∀ s t, P s → execDsync s = .next t → P t) (h4 : ∀ s t, P s → execDcsum s = .next t → P t)
    (h5 : ∀ s t, P s → execDang s = .next t → P t) (h6 : ∀ s t, P s → execDflip s = .next t → P t)
    {s t : State} (hs : P s) (h : decodeOnce s = .next t) : P t := by
  unfold decodeOnce at h
  split at h
  · obtain ⟨u1, hu1, h⟩ := andThen_eq_next.1 h
    obtain ⟨u2, hu2, h⟩ := andThen_eq_next.1 h
    obtain ⟨u3, hu3, h⟩ := andThen_eq_next.1 h
    obtain ⟨u4, hu4, h⟩ := andThen_eq_next.1 h
    obtain ⟨u5, hu5, h⟩ := andThen_eq_next.1 h
    have k1 := h1 _ _ hs hu1
    have k2 := whenPhase_keeps h2 k1 hu2
    have k3 := whenPhase_keeps h3 k2 hu3
    have k4 := whenPhase_keeps h4 k3 hu4
    have k5 := whenPhase_keeps h5 k4 hu5
    exact whenPhase_keeps h6 k5 h
  · cases h; exact hs

/-- What TA.RXB and RXC keep, a descriptor record keeps. -/
theorem receiveDescriptor_keeps {P : State → Prop} (hb : ∀ b s t, P s → execTaRxb b s = .next t → P t)
    (hr : ∀ s t, P s → execRxc s = .next t → P t) {d : List Byte} {s t : State}
    (hs : P s) (h : receiveDescriptor d s = .next t) : P t := by
  obtain ⟨u, hu, h⟩ := andThen_eq_next.1 h
  exact serveIfPending_keeps hr (landAll_keeps hb d s u hs hu) h

/-- What TA.RXB, RXC and the decoder operations keep, a frame record keeps. -/
theorem receiveFrame_keeps {P : State → Prop} (hb : ∀ b s t, P s → execTaRxb b s = .next t → P t)
    (hr : ∀ s t, P s → execRxc s = .next t → P t)
    (h1 : ∀ s t, P s → execDpoll s = .next t → P t) (h2 : ∀ s t, P s → execDclr s = .next t → P t)
    (h3 : ∀ s t, P s → execDsync s = .next t → P t) (h4 : ∀ s t, P s → execDcsum s = .next t → P t)
    (h5 : ∀ s t, P s → execDang s = .next t → P t) (h6 : ∀ s t, P s → execDflip s = .next t → P t)
    {f : List Byte} {s t : State} (hs : P s) (h : receiveFrame f s = .next t) : P t := by
  obtain ⟨u, hu, h⟩ := andThen_eq_next.1 h
  obtain ⟨v, hv, h⟩ := andThen_eq_next.1 h
  exact decodeOnce_keeps h1 h2 h3 h4 h5 h6 (serveIfPending_keeps hr (landAll_keeps hb f s u hs hu) hv) h

end Sys2Proof.Machine
end

