-- ==== Sys2Proof/Laws/Exec.lean ====
section
/-! SUPPORT. What each single operation can do: if its meaning answers a next state, where it was enabled and what that state is. -/

namespace Sys2Proof.Machine

theorem execTaArm_next {space : Space} {base : BitVec 8} {len : BitVec 7} {s t : State}
    (h : execTaArm space base len s = .next t) :
    s.rxa = false ∧ t = { s with rxa := true, rxsp := space, rxbase := base, rxlen := len, rxcnt := 0,
                                 trace := s.trace ++ [.arm space base len] } :=
  armReceive_eq_next.1 h

/-- A received byte is lost, or lands in the pool, or lands in the descriptor buffer. -/
theorem execTaRxb_next {b : Byte} {s t : State} (h : execTaRxb b s = .next t) :
    (s.rxa = false ∧ t = { s with trace := s.trace ++ [.line (.taRxb b), .lost b] }) ∨
    (s.rxa = true ∧ s.rxsp = .pool ∧ s.rxbase.toNat + s.rxcnt.toNat < 168 ∧
      t = { s with
        pool := Memory.write s.pool (s.rxbase.toNat + s.rxcnt.toNat) b
        shadow := if s.tears (s.rxbase.toNat + s.rxcnt.toNat) then
            (s.rxbase.toNat + s.rxcnt.toNat, Memory.read s.pool (s.rxbase.toNat + s.rxcnt.toNat)) :: s.shadow
          else s.shadow
        rxcnt := s.rxcnt + 1
        rxa := if s.rxcnt + 1 = s.rxlen then false else true
        rxcPend := if s.rxcnt + 1 = s.rxlen then true else s.rxcPend
        trace := s.trace ++ [.line (.taRxb b)] }) ∨
    (s.rxa = true ∧ s.rxsp = .desc ∧ s.rxcnt.toNat < 7 ∧
      t = { s with
        desc := Memory.write s.desc s.rxcnt.toNat b
        rxcnt := s.rxcnt + 1
        rxa := if s.rxcnt + 1 = s.rxlen then false else true
        rxcPend := if s.rxcnt + 1 = s.rxlen then true else s.rxcPend
        trace := s.trace ++ [.line (.taRxb b)] }) := by
  unfold execTaRxb at h
  by_cases ha : s.rxa = true
  · right
    cases hs : s.rxsp with
    | pool =>
      left
      by_cases hlt : s.rxbase.toNat + s.rxcnt.toNat < 168
      · rw [landByte_pool (s := s.log (.taRxb b)) b ha hs hlt, advanceReceive_eq] at h
        refine ⟨ha, rfl, hlt, ?_⟩
        injection h with h
        rw [← h]
        simp [State.log, State.emit, State.tears, ha, hs]
      · simp [landByte, ha, hs, adapterOffset, writePool, Config.poolLen, hlt] at h
    | desc =>
      right
      by_cases hlt : s.rxcnt.toNat < 7
      · rw [landByte_desc (s := s.log (.taRxb b)) b ha hs hlt, advanceReceive_eq] at h
        refine ⟨ha, rfl, hlt, ?_⟩
        injection h with h
        rw [← h]
        simp [State.log, State.emit, ha, hs]
      · simp [landByte, ha, hs, adapterOffset, writeDesc, Config.descLen, hlt] at h
  · have ha' : s.rxa = false := by simpa using ha
    left
    rw [landByte_unarmed (s := s.log (.taRxb b)) ha'] at h
    injection h with h
    refine ⟨ha', ?_⟩
    rw [← h]
    simp [State.log, State.emit]

theorem execStart_next {s t : State} (h : execStart s = .next t) :
    s.tph = .tIdle ∧ s.rxa = false ∧
      t = { s with
        link := .awaiting, tph := .tWait, rxa := true, rxsp := .desc, rxbase := 0, rxlen := 7, rxcnt := 0
        trace := s.trace ++ [.line .start, .tx Config.cmdBytes, .arm .desc 0 7] } := by
  unfold execStart at h
  split at h
  · rename_i hp
    obtain ⟨u, hu, ht⟩ := andThen_eq_next.1 h
    obtain ⟨ha, rfl⟩ := armReceive_eq_next.1 hu
    refine ⟨hp, ha, ?_⟩
    injection ht with ht
    rw [← ht]
    simp [State.log, State.emit, sendBytes]
  · cases h

theorem execWaits_next {s t : State} (h : execWaits s = .next t) :
    s.tph = .tWait ∧
      t = { s with tph := if s.link = .streaming then .dPoll else .tWait, trace := s.trace ++ [.line .waits] } := by
  unfold execWaits at h
  split at h
  · rename_i hp
    split at h <;> rename_i hl <;> cases h <;> simp [hp, hl, State.log, State.emit]
  · cases h

theorem execRxcIdle_next {s t : State} (h : execRxcIdle s = .next t) :
    s.rxcPend = true ∧ s.link = .idle ∧ t = { s with rxcPend := false, trace := s.trace ++ [.line .rxcIdle] } := by
  unfold execRxcIdle at h
  split at h
  · rename_i hp; cases h; exact ⟨hp.1, hp.2, rfl⟩
  · cases h

theorem execRxcHsok_next {s t : State} (h : execRxcHsok s = .next t) :
    s.rxcPend = true ∧ s.link = .awaiting ∧ Memory.read s.desc 6 = some 0x82 ∧ s.rxa = false ∧
      t = { s with
        rxcPend := false, link := .streaming, rxa := true, rxsp := .pool, rxbase := s.widx, rxlen := 84, rxcnt := 0
        trace := s.trace ++ [.line .rxcHsok, .arm .pool s.widx 84] } := by
  unfold execRxcHsok at h
  split at h
  · rename_i hp
    obtain ⟨b, hb, h⟩ := withEcho_eq_next.1 h
    split at h
    · rename_i he
      obtain ⟨ha, ht⟩ := armReceive_eq_next.1 h
      refine ⟨hp.1, hp.2, by rw [hb, he]; rfl, ha, ?_⟩
      simp [ht, State.log, State.emit, State.clearPend]
    · cases h
  · cases h

theorem execRxcHsbad_next {s t : State} (h : execRxcHsbad s = .next t) :
    s.rxcPend = true ∧ s.link = .awaiting ∧ ∃ b, Memory.read s.desc 6 = some b ∧ b ≠ 0x82 ∧
      t = { s with rxcPend := false, cntHsbad := bump s.cfg s.cntHsbad
                   trace := s.trace ++ [.line .rxcHsbad, .drop (.hsMismatch b)] } := by
  unfold execRxcHsbad at h
  split at h
  · rename_i hp
    obtain ⟨b, hb, h⟩ := withEcho_eq_next.1 h
    split at h
    · cases h
    · rename_i he
      cases h
      refine ⟨hp.1, hp.2, b, hb, he, ?_⟩
      simp [State.raiseDrop, State.countDrop, State.log, State.emit, State.clearPend]
  · cases h

theorem execRxcFrame_next {s t : State} (h : execRxcFrame s = .next t) :
    s.rxcPend = true ∧ s.link = .streaming ∧ s.ready = false ∧ s.rxa = false ∧
      t = { s with
        rxcPend := false, ready := true, widx := flipOffset s.widx
        rxa := true, rxsp := .pool, rxbase := flipOffset s.widx, rxlen := 84, rxcnt := 0
        trace := s.trace ++ [.line .rxcFrame, .arm .pool (flipOffset s.widx) 84] } := by
  unfold execRxcFrame at h
  split at h
  · rename_i hp
    obtain ⟨ha, ht⟩ := armReceive_eq_next.1 h
    refine ⟨hp.1, hp.2.1, hp.2.2, ha, ?_⟩
    simp [ht, State.log, State.emit, State.clearPend, State.setReady]
  · cases h

theorem execRxcOvr_next {s t : State} (h : execRxcOvr s = .next t) :
    s.rxcPend = true ∧ s.link = .streaming ∧ s.ready = true ∧
      ((s.cfg.ovrPolicy = .halt ∧
        t = { s with rxcPend := false, cntOvr := bump s.cfg s.cntOvr
                     trace := s.trace ++ [.line .rxcOvr, .drop (.overrun s.widx)] }) ∨
       (s.cfg.ovrPolicy = .rearmSame ∧ s.rxa = false ∧
        t = { s with
          rxcPend := false, cntOvr := bump s.cfg s.cntOvr
          rxa := true, rxsp := .pool, rxbase := s.widx, rxlen := 84, rxcnt := 0
          trace := s.trace ++ [.line .rxcOvr, .drop (.overrun s.widx), .arm .pool s.widx 84] })) := by
  unfold execRxcOvr at h
  split at h
  · rename_i hp
    refine ⟨hp.1, hp.2.1, hp.2.2, ?_⟩
    split at h
    · rename_i hc
      cases h
      exact .inl ⟨hc, by simp [State.raiseDrop, State.countDrop, State.log, State.emit, State.clearPend]⟩
    · rename_i hc
      obtain ⟨ha, ht⟩ := armReceive_eq_next.1 h
      exact .inr ⟨hc, ha, by simp [ht, State.raiseDrop, State.countDrop, State.log, State.emit, State.clearPend]⟩
  · cases h

/-- RXC is one of its five variants. -/
theorem execRxc_next {s t : State} (h : execRxc s = .next t) :
    execRxcIdle s = .next t ∨ execRxcHsok s = .next t ∨ execRxcHsbad s = .next t ∨ execRxcFrame s = .next t ∨
      execRxcOvr s = .next t := by
  unfold execRxc at h
  split at h
  · split at h
    · exact .inl h
    · obtain ⟨b, -, h⟩ := withEcho_eq_next.1 h
      split at h
      · exact .inr (.inl h)
      · exact .inr (.inr (.inl h))
    · split at h
      · exact .inr (.inr (.inr (.inr h)))
      · exact .inr (.inr (.inr (.inl h)))
  · cases h

theorem execDpoll_next {s t : State} (h : execDpoll s = .next t) :
    s.tph = .dPoll ∧
      t = { s with tph := if s.ready = true then .dClr else .dPoll, trace := s.trace ++ [.line .dpoll] } := by
  unfold execDpoll at h
  split at h
  · rename_i hp
    split at h <;> rename_i hl <;> cases h <;> simp [hp, hl, State.log, State.emit]
  · cases h

theorem execDclr_next {s t : State} (h : execDclr s = .next t) :
    s.tph = .dClr ∧ t = { s with ready := false, tph := .dSync, shadow := [], trace := s.trace ++ [.line .dclr] } := by
  unfold execDclr at h
  split at h
  · rename_i hp; cases h; exact ⟨hp, rfl⟩
  · cases h

theorem execDsync_next {s t : State} (h : execDsync s = .next t) :
    s.tph = .dSync ∧ ∃ b0 b1 n, some b0 ∈ s.candidates (s.ridx.toNat + 0) ∧ some b1 ∈ s.candidates (s.ridx.toNat + 1) ∧
      ((syncOf b0 b1 = 0xA5 ∧ t = { s with freeIdx := n, tph := .dCsum, trace := s.trace ++ [.line .dsync] }) ∨
       (syncOf b0 b1 ≠ 0xA5 ∧ t = { s with
          freeIdx := n, tph := .dFlip, dstat := .syncFail, cntSync := bump s.cfg s.cntSync
          trace := s.trace ++ [.line .dsync, .drop (.syncFail (syncOf b0 b1))] })) := by
  unfold execDsync at h
  split at h
  · rename_i hp
    obtain ⟨b0, n0, h0, h⟩ := withFrameByte_eq_next h
    obtain ⟨b1, n1, h1, h⟩ := withFrameByte_eq_next h
    refine ⟨hp, b0, b1, n1, h0, h1, ?_⟩
    split at h <;> rename_i hs <;> cases h
    · exact .inl ⟨hs, by simp [State.log, State.emit]⟩
    · exact .inr ⟨hs, by simp [State.raiseDrop, State.countDrop, State.log, State.emit]⟩
  · cases h

theorem execDcsum_next {s t : State} (h : execDcsum s = .next t) :
    s.tph = .dCsum ∧ ∃ acc ck n,
      (acc = ck ∧ t = { s with freeIdx := n, tph := .dAng, trace := s.trace ++ [.line .dcsum] }) ∨
      (acc ≠ ck ∧ t = { s with
          freeIdx := n, tph := .dFlip, dstat := .csumFail, cntCsum := bump s.cfg s.cntCsum
          trace := s.trace ++ [.line .dcsum, .drop (.csumFail acc ck)] }) := by
  unfold execDcsum at h
  split at h
  · rename_i hp
    obtain ⟨b0, n0, -, h⟩ := withFrameByte_eq_next h
    obtain ⟨b1, n1, -, h⟩ := withFrameByte_eq_next h
    obtain ⟨acc, m, h⟩ := withXor_eq_next _ _ _ _ h
    refine ⟨hp, acc, ckrxOf b0 b1, m, ?_⟩
    split at h <;> rename_i hs <;> cases h
    · exact .inl ⟨hs, by simp [State.log, State.emit]⟩
    · exact .inr ⟨hs, by simp [State.raiseDrop, State.countDrop, State.log, State.emit]⟩
  · cases h

theorem execDang_next {s t : State} (h : execDang s = .next t) :
    s.tph = .dAng ∧ ∃ b3 b2 n, some b3 ∈ s.candidates (s.ridx.toNat + 3) ∧ some b2 ∈ s.candidates (s.ridx.toNat + 2) ∧
      t = { s with
        freeIdx := n, tph := .dFlip, pubAngleQ6 := angleOf b3 b2, pubValid := true, dstat := .accepted
        cntAcc := bump s.cfg s.cntAcc, trace := s.trace ++ [.line .dang, .pub (angleOf b3 b2)] } := by
  unfold execDang at h
  split at h
  · rename_i hp
    obtain ⟨b3, n0, h3, h⟩ := withFrameByte_eq_next h
    obtain ⟨b2, n1, h2, h⟩ := withFrameByte_eq_next h
    refine ⟨hp, b3, b2, n1, h3, h2, ?_⟩
    cases h
    simp [State.countAccept, State.log, State.emit]
  · cases h

theorem execDflip_next {s t : State} (h : execDflip s = .next t) :
    s.tph = .dFlip ∧
      t = { s with ridx := flipOffset s.ridx, tph := .dPoll, shadow := [], trace := s.trace ++ [.line .dflip] } := by
  unfold execDflip at h
  split at h
  · rename_i hp; cases h; exact ⟨hp, rfl⟩
  · cases h

end Sys2Proof.Machine
end

