-- ==== Sys2Proof/Laws/PerInstr.lean ====
section
/-! SUPPORT. The per-instruction family EncodedLength: how many bytes a well-formed instruction takes (30_encoding.md R90, R100, R102). -/

namespace Sys2Proof.Laws.EncodedLength

/-- The bytes an instruction takes: a record its format's length (R90), an operation its id and the operand byte where it has one (R100, R102; TA.ARM's selector is log entry 10). -/
def bytesOf : Instr → Nat
  | .taArm _ _ _ => 2
  | .taRxb _ => 2
  | .reset => 1
  | .start => 1
  | .waits => 1
  | .dpoll => 1
  | .dclr => 1
  | .dsync => 1
  | .dcsum => 1
  | .dang => 1
  | .dcab => 1
  | .dflip => 1
  | .taTx _ => 1
  | .rxcIdle => 1
  | .rxcHsok => 1
  | .rxcHsbad => 1
  | .rxcFrame => 1
  | .rxcOvr => 1
  | .rxc => 1
  | .cmdXscan => 9
  | .descOk _ => 7
  | .descBad _ => 7
  | .frameSynced _ => 84
  | .frameUnsynced _ => 84

/-- The encoding of a well-formed instruction has exactly its length. -/
def Statement (i : Instr) : Prop := i.wf = true → (encode i).length = bytesOf i

theorem reset : Statement .reset := fun _ => rfl
theorem start : Statement .start := fun _ => rfl
theorem waits : Statement .waits := fun _ => rfl
theorem dpoll : Statement .dpoll := fun _ => rfl
theorem dclr : Statement .dclr := fun _ => rfl
theorem dsync : Statement .dsync := fun _ => rfl
theorem dcsum : Statement .dcsum := fun _ => rfl
theorem dang : Statement .dang := fun _ => rfl
theorem dcab : Statement .dcab := fun _ => rfl
theorem dflip : Statement .dflip := fun _ => rfl
theorem taArm (space : Space) (base : BitVec 8) (len : BitVec 7) : Statement (.taArm space base len) := fun _ => rfl
theorem taRxb (b : Byte) : Statement (.taRxb b) := fun _ => rfl
theorem taTx (bytes : List Byte) : Statement (.taTx bytes) := fun _ => rfl
theorem rxcIdle : Statement .rxcIdle := fun _ => rfl
theorem rxcHsok : Statement .rxcHsok := fun _ => rfl
theorem rxcHsbad : Statement .rxcHsbad := fun _ => rfl
theorem rxcFrame : Statement .rxcFrame := fun _ => rfl
theorem rxcOvr : Statement .rxcOvr := fun _ => rfl
theorem rxc : Statement .rxc := fun _ => rfl
theorem cmdXscan : Statement .cmdXscan := fun _ => rfl
theorem descOk (d : List Byte) : Statement (.descOk d) := fun h => by
  simp only [Instr.wf, descLengthOk, Bool.and_eq_true, beq_iff_eq] at h
  exact h.1
theorem descBad (d : List Byte) : Statement (.descBad d) := fun h => by
  simp only [Instr.wf, descLengthOk, Bool.and_eq_true, beq_iff_eq] at h
  exact h.1
theorem frameSynced (f : List Byte) : Statement (.frameSynced f) := fun h => by
  simp only [Instr.wf, frameLengthOk, Bool.and_eq_true, beq_iff_eq] at h
  exact h.1
theorem frameUnsynced (f : List Byte) : Statement (.frameUnsynced f) := fun h => by
  simp only [Instr.wf, frameLengthOk, Bool.and_eq_true, beq_iff_eq] at h
  exact h.1

end Sys2Proof.Laws.EncodedLength
end

