-- ==== Sys2Proof/Tests/Slice0.lean ====
section
/-! SUPPORT. Tests with results taken from spec/ (95_test_vectors.md, 30_encoding.md), and for every statement a witness of its hypotheses. -/

namespace Sys2Proof.Tests

open Sys2Proof Sys2Proof.Machine Sys2Proof.Safety

set_option maxRecDepth 10000

/-! ## Helpers -/

/-- `p` holds of the next state; false on a fault or a refusal. -/
def after (r : Result) (p : State → Bool) : Bool :=
  match r with
  | .next t => p t
  | .fault _ => false
  | .refused _ => false

/-- Consecutive bytes of a memory. -/
def bytesAt (base : Nat) (bytes : List Byte) : Memory := (List.range' base bytes.length).zip bytes

/-- F1 of 95_test_vectors.md: angle 0x3412, checksum 0x26. -/
def f1 : List Byte := [0xA6, 0x52, 0x12, 0x34] ++ List.replicate 80 0x00

/-- A frame with the given four header bytes and zeros. -/
def frameOf (b0 b1 b2 b3 : Byte) : List Byte := [b0, b1, b2, b3] ++ List.replicate 80 0x00

/-- After START. -/
def waiting : State :=
  { State.reset with link := .awaiting, tph := .tWait, rxa := true, rxsp := .desc, rxlen := 7 }

/-- After the seventh descriptor byte, not served yet. -/
def answered (d : List Byte) : State :=
  { waiting with rxa := false, rxcnt := 7, rxcPend := true, desc := bytesAt 0 d }

/-- Streaming, the task at its poll, the first frame armed. -/
def streaming : State :=
  { State.reset with link := .streaming, tph := .dPoll, rxa := true, rxsp := .pool, rxlen := 84 }

/-- One byte short of the end of the armed frame. -/
def almost : State := { streaming with rxcnt := 83, pool := bytesAt 0 (f1.take 83) }

/-- A frame has landed in buffer A, not served yet. -/
def landed (f : List Byte) : State :=
  { streaming with rxa := false, rxcnt := 84, rxcPend := true, pool := bytesAt 0 f }

/-- A frame was handed over in buffer A, buffer B is armed. -/
def handed (f : List Byte) : State :=
  { streaming with ready := true, widx := 84, rxbase := 84, pool := bytesAt 0 f }

/-- As `handed`, and the next frame has landed in buffer B too. -/
def overrun (p : Config.OvrPolicy) : State :=
  { handed f1 with
    rxa := false, rxcnt := 84, rxcPend := true, pool := bytesAt 0 (f1 ++ f1), cfg := { ovrPolicy := p, diagW := 32 } }

/-- The frame in buffer A under decode, in phase `p`. -/
def decoding (p : Phase) (f : List Byte) : State := { handed f with ready := false, tph := p }

/-! ## Well-formedness refuses -/

theorem test_wf_arm_desc_base : (Instr.taArm .desc 1 7).wf = false := by decide
theorem test_wf_arm_pool_base : (Instr.taArm .pool 42 84).wf = false := by decide
theorem test_wf_arm_length : (Instr.taArm .pool 0 83).wf = false := by decide
theorem test_wf_tx_other_bytes : (Instr.taTx [0xA5]).wf = false := by decide
theorem test_wf_desc_length : (Instr.descOk [0x82]).wf = false := by decide
theorem test_wf_desc_ok_echo : (Instr.descOk [0, 0, 0, 0, 0, 0, 0x83]).wf = false := by decide
theorem test_wf_desc_bad_echo : (Instr.descBad [0, 0, 0, 0, 0, 0, 0x82]).wf = false := by decide
theorem test_wf_frame_length : (Instr.frameSynced [0xA0, 0x50]).wf = false := by decide
theorem test_wf_frame_synced : (Instr.frameSynced (frameOf 0xA5 0x28 0x12 0x34)).wf = false := by decide
theorem test_wf_frame_unsynced : (Instr.frameUnsynced f1).wf = false := by decide

/-! ## Decoding, the bytes written out from R92, R99, R100, R102 -/

theorem test_decode_reset : decode .evt [0x00] = .ok (.reset, []) := by rfl
theorem test_decode_start : decode .evt [0x01] = .ok (.start, []) := by rfl
theorem test_decode_waits : decode .evt [0x02] = .ok (.waits, []) := by rfl
theorem test_decode_dpoll : decode .evt [0x03] = .ok (.dpoll, []) := by rfl
theorem test_decode_dclr : decode .evt [0x04] = .ok (.dclr, []) := by rfl
theorem test_decode_dsync : decode .evt [0x05] = .ok (.dsync, []) := by rfl
theorem test_decode_dcsum : decode .evt [0x06] = .ok (.dcsum, []) := by rfl
theorem test_decode_dang : decode .evt [0x07] = .ok (.dang, []) := by rfl
theorem test_decode_dcab : decode .evt [0x08] = .ok (.dcab, []) := by rfl
theorem test_decode_dflip : decode .evt [0x09] = .ok (.dflip, []) := by rfl
theorem test_decode_ta_arm : decode .evt [0x10, 0x02] = .ok (.taArm .pool 84 84, []) := by rfl
theorem test_decode_ta_rxb : decode .evt [0x11, 0x5A, 0x11] = .ok (.taRxb 0x5A, [0x11]) := by rfl
theorem test_decode_ta_tx : decode .evt [0x12] = .ok (.taTx [0xA5, 0x82, 5, 0, 0, 0, 0, 0, 0x22], []) := by rfl
theorem test_decode_rxc_idle : decode .evt [0x18] = .ok (.rxcIdle, []) := by rfl
theorem test_decode_rxc_hsok : decode .evt [0x19] = .ok (.rxcHsok, []) := by rfl
theorem test_decode_rxc_hsbad : decode .evt [0x1A] = .ok (.rxcHsbad, []) := by rfl
theorem test_decode_rxc_frame : decode .evt [0x1B] = .ok (.rxcFrame, []) := by rfl
theorem test_decode_rxc_ovr : decode .evt [0x1C] = .ok (.rxcOvr, []) := by rfl
theorem test_decode_rxc : decode .evt [0x1F, 0x02] = .ok (.rxc, [0x02]) := by rfl
theorem test_decode_cmd : decode .c9 [0xA5, 0x82, 5, 0, 0, 0, 0, 0, 0x22] = .ok (.cmdXscan, []) := by rfl
theorem test_decode_desc_ok : decode .d7 [0xFF, 0xFF, 0xFF, 0xFF, 0xFF, 0xFF, 0x82, 0xA6] =
    .ok (.descOk [0xFF, 0xFF, 0xFF, 0xFF, 0xFF, 0xFF, 0x82], [0xA6]) := by rfl
theorem test_decode_desc_bad : decode .d7 [0x11, 0x22, 0x33, 0x44, 0x55, 0x66, 0x83] =
    .ok (.descBad [0x11, 0x22, 0x33, 0x44, 0x55, 0x66, 0x83], []) := by rfl
theorem test_decode_frame_synced : decode .f84 f1 = .ok (.frameSynced f1, []) := by rfl
theorem test_decode_frame_unsynced : decode .f84 (frameOf 0xA5 0x28 0x12 0x34) =
    .ok (.frameUnsynced (frameOf 0xA5 0x28 0x12 0x34), []) := by rfl

theorem test_reject_unassigned : decode .evt [0x0A] = .error (.unassignedId 0x0A) := by rfl
theorem test_reject_no_data_byte : decode .evt [0x11] = .error (.missingOperand 0x11) := by rfl
theorem test_reject_no_triple : decode .evt [0x10, 0x03] = .error (.noSuchTriple 0x03) := by rfl
theorem test_reject_other_command : decode .c9 [0xA5, 0x82, 5, 0, 0, 0, 0, 0, 0x21] = .error .notCommand := by rfl
theorem test_reject_short_record : decode .d7 [0x82] = .error (.shortRecord .d7) := by rfl
theorem test_reject_empty : decode .evt [] = .error .empty := by rfl

/-- The table's words: an id in the low byte, a record's byte 0 in the low byte (log entry 18). -/
theorem test_table_words :
    decodeTableWord 8 0x09 = some .dflip ∧ decodeTableWord 8 0x0A = none ∧
    decodeTableWord 16 0x5A11 = some (.taRxb 0x5A) ∧ decodeTableWord 8 0x11 = some (.taRxb 0x00) ∧
    decodeTableWord 72 0x2200000000000582A5 = some .cmdXscan ∧
    decodeTableWord 56 0x82000000000000 = some (.descOk [0, 0, 0, 0, 0, 0, 0x82]) := by decide

/-- A word placed after reset is the next step: WAITS in T_WAIT, DROP(1) for a mismatch. -/
theorem test_fetch_word_runs :
    step (State.reset.withFetchWord 8 0x02) = .next { State.reset with tph := .tWait, trace := [.line .waits] } ∧
    after (step (State.reset.withFetchWord 8 0x1A)) (fun t => decide (t.cntHsbad = 1 ∧ t.script = [])) = true ∧
    step (State.reset.withFetchWord 8 0x08) = .refused .cabinDecodeReserved := by
  refine ⟨?_, ?_, ?_⟩ <;> rfl

/-- Every operation row but DCAB runs to a next state as the first operation after reset. -/
theorem test_first_words_run :
    ∀ w ∈ [0x00, 0x01, 0x02, 0x03, 0x04, 0x05, 0x06, 0x07, 0x09, 0x10, 0x11, 0x12, 0x18, 0x19, 0x1A, 0x1B, 0x1C, 0x1F],
      after (step (State.reset.withFetchWord 8 w)) (fun t => t.script.isEmpty) = true := by
  intro w h
  fin_cases h <;> rfl

/-! ## Field assembly and whole decodes (V-DEC) -/

/-- V-DEC-1, 2, 3, 8, 13. -/
theorem test_decode_frames :
    decodeFrame (fun i => f1.getD i 0) = .accept 0x3412 ∧
    decodeFrame (fun i => (frameOf 0xA5 0x28 0x12 0x34).getD i 0) = .syncFail ∧
    decodeFrame (fun i => (frameOf 0xA6 0x5A 0x12 0xB4).getD i 0) = .accept 0xB412 ∧
    decodeFrame (fun i => (frameOf 0xAA 0x55 0x00 0x5A).getD i 0) = .accept 0x5A00 ∧
    decodeFrame (fun i => (frameOf 0xA6 0x52 0x34 0x12).getD i 0) = .accept 0x1234 := by decide

/-- V-DEC-14, 15, 17, 28: byte 83 and byte 2 are in the sum, bytes 0 and 1 are not. -/
theorem test_decode_bad_sums :
    decodeFrame (fun i => (f1.take 83 ++ [0x01]).getD i 0) = .csumFail ∧
    decodeFrame (fun i => (frameOf 0xA6 0x52 0x92 0x34).getD i 0) = .csumFail ∧
    decodeFrame (fun i => (frameOf 0xA6 0x53 0x12 0x34).getD i 0) = .csumFail ∧
    decodeFrame (fun i => (frameOf 0xA5 0x5A 0x00 0x00).getD i 0) = .csumFail := by decide

/-- V-DEC-22 to 27 at the edges of the sync ranges. -/
theorem test_sync_edges :
    syncOf 0xAF 0x5F = 0xA5 ∧ syncOf 0x9F 0x5F = 0x95 ∧ syncOf 0xB0 0x50 = 0xB5 ∧ syncOf 0xA0 0x4F = 0xA4 ∧
    syncOf 0xA0 0x60 = 0xA6 ∧ syncOf 0x5A 0xA5 = 0x5A ∧ ckrxOf 0xA6 0x5A = 0xA6 ∧ ckrxOf 0xA5 0x28 = 0x85 := by decide

/-- R103: F1 is FRAME(0x3412) with zero cabins. -/
theorem test_frame_builder : frameBytes 0x3412 (List.replicate 80 0x00) = f1 := by decide

/-! ## Single steps -/

/-- V-RST-2, first half, and what RESET leaves of the counters. -/
theorem test_reset_cancels : after (exec .reset { streaming with rxcnt := 40, cntAcc := 5 }) (fun t =>
    decide (t.rxa = false ∧ t.link = .idle ∧ t.tph = .tIdle ∧ t.cntAcc = 0)) = true := by rfl

/-- V-HS-1. -/
theorem test_start : after (exec .start State.reset) (fun t => decide (t.link = .awaiting ∧ t.tph = .tWait ∧
    t.rxa = true ∧ t.rxsp = .desc ∧ t.rxlen = 7 ∧ taArms State.reset t = [(.desc, 0, 7)] ∧
    taTxData State.reset t = [0xA5, 0x82, 0x05, 0, 0, 0, 0, 0, 0x22])) = true := by decide

/-- V-HS-8. -/
theorem test_start_refused : exec .start waiting = .refused (.notEnabled "START") := by rfl

/-- V-HS-2, V-HS-7. -/
theorem test_waits : after (exec .waits waiting) (fun t => decide (t.tph = .tWait)) = true ∧
    after (exec .waits { streaming with tph := .tWait }) (fun t => decide (t.tph = .dPoll)) = true := by decide

/-- V-TA-8. -/
theorem test_arm_refused : exec (.taArm .pool 0 84) waiting = .refused .armWhileArmed := by rfl

/-- V-TA-3. -/
theorem test_rxb_desc_last : after (exec (.taRxb 0x82) { waiting with rxcnt := 6 }) (fun t =>
    decide (Memory.read t.desc 6 = some 0x82 ∧ t.rxa = false ∧ t.rxcPend = true)) = true := by decide

/-- V-TA-5, V-TA-6. -/
theorem test_rxb_pool_last :
    after (exec (.taRxb 0x7C) { streaming with rxbase := 84, rxcnt := 83 }) (fun t =>
      decide (Memory.read t.pool 167 = some 0x7C ∧ t.rxa = false ∧ t.rxcPend = true)) = true ∧
    after (exec (.taRxb 0x00) { streaming with rxcnt := 83, pool := [(84, 0x11)] }) (fun t =>
      decide (t.pool = [(83, 0x00), (84, 0x11)] ∧ t.rxcPend = true)) = true := by decide

/-- S1. -/
theorem test_send : after (exec .cmdXscan State.reset) (fun t =>
    decide (t.trace = [.tx [0xA5, 0x82, 0x05, 0, 0, 0, 0, 0, 0x22]])) = true := by decide

/-- R143. -/
theorem test_rxc_idle : after (exec .rxcIdle { State.reset with rxcPend := true }) (fun t =>
    decide (t.rxcPend = false ∧ t.rxa = false)) = true := by decide

/-- V-HS-3, through the dispatch. -/
theorem test_rxc_hsok : after (exec .rxc (answered [0x11, 0x22, 0x33, 0x44, 0x55, 0x66, 0x82])) (fun t =>
    decide (t.link = .streaming ∧ t.rxcPend = false ∧ t.rxa = true ∧ t.rxsp = .pool ∧ t.rxbase = 0 ∧ t.rxlen = 84 ∧
      t.rxcnt = 0 ∧ .line .rxcHsok ∈ t.trace)) = true := by decide

/-- V-HS-6. -/
theorem test_rxc_hsbad : after (exec .rxcHsbad (answered [0x82, 0x82, 0x82, 0x82, 0x82, 0x82, 0x02])) (fun t =>
    decide (t.link = .awaiting ∧ t.rxcPend = false ∧ t.rxa = false ∧ t.cntHsbad = 1 ∧
      .drop (.hsMismatch 0x02) ∈ t.trace)) = true := by decide

/-- V-RP-1, V-RP-2. -/
theorem test_rxc_frame :
    after (exec .rxcFrame (landed [])) (fun t => decide (t.ready = true ∧ t.widx = 84 ∧ t.rxbase = 84 ∧ t.rxcnt = 0 ∧
      t.rxcPend = false)) = true ∧
    after (exec .rxcFrame { landed [] with widx := 84 }) (fun t => decide (t.ready = true ∧ t.widx = 0 ∧
      t.rxbase = 0)) = true := by decide

/-- V-RP-3, V-RP-4. -/
theorem test_rxc_ovr :
    after (exec .rxcOvr (overrun .halt)) (fun t => decide (t.ready = true ∧ t.widx = 84 ∧ t.rxa = false ∧
      t.cntOvr = 1 ∧ t.rxcPend = false)) = true ∧
    after (exec .rxcOvr (overrun .rearmSame)) (fun t => decide (t.ready = true ∧ t.widx = 84 ∧ t.rxa = true ∧
      t.rxbase = 84 ∧ t.rxcnt = 0 ∧ t.cntOvr = 1)) = true := by decide

/-- V-RP-6. -/
theorem test_rxc_not_enabled : exec .rxc streaming = .refused (.notEnabled "RXC") := by rfl

/-- V-DEC-30, V-DEC-31. -/
theorem test_dpoll : after (exec .dpoll streaming) (fun t => decide (t.tph = .dPoll)) = true ∧
    after (exec .dpoll (handed [])) (fun t => decide (t.tph = .dClr ∧ t.ready = true)) = true := by decide

/-- V-DEC-32. -/
theorem test_dclr : after (exec .dclr { handed [] with tph := .dClr }) (fun t =>
    decide (t.tph = .dSync ∧ t.ready = false)) = true := by decide

/-- V-DEC-33: the read side is at 84. -/
theorem test_dsync_good : after (exec .dsync { decoding .dSync [] with ridx := 84, pool := bytesAt 84 f1 }) (fun t =>
    decide (t.tph = .dCsum)) = true := by decide

/-- V-DEC-38: the counter wraps. -/
theorem test_dsync_bad : after (exec .dsync { decoding .dSync [0xA5, 0x28] with cntSync := 2 ^ 32 - 1 }) (fun t =>
    decide (t.tph = .dFlip ∧ t.cntSync = 0 ∧ t.dstat = .syncFail ∧ .drop (.syncFail 0xA2) ∈ t.trace)) = true := by decide

/-- V-DEC-1. -/
theorem test_dcsum_good : after (exec .dcsum (decoding .dCsum f1)) (fun t => decide (t.tph = .dAng)) = true := by decide

/-- V-DEC-14. -/
theorem test_dcsum_bad : after (exec .dcsum (decoding .dCsum (f1.take 83 ++ [0x01]))) (fun t =>
    decide (t.tph = .dFlip ∧ t.cntCsum = 1 ∧ t.dstat = .csumFail ∧ .drop (.csumFail 0x27 0x26) ∈ t.trace)) = true := by
  decide

/-- V-DEC-36. -/
theorem test_dang : after (exec .dang (decoding .dAng [0, 0, 0x12, 0x34])) (fun t => decide (t.pubAngleQ6 = 0x3412 ∧
    t.pubValid = true ∧ t.dstat = .accepted ∧ t.cntAcc = 1 ∧ t.tph = .dFlip ∧ .pub 0x3412 ∈ t.trace)) = true := by decide

/-- V-DEC-37. -/
theorem test_dcab : exec .dcab streaming = .refused .cabinDecodeReserved := by rfl

/-- V-DEC-34, V-DEC-35. -/
theorem test_dflip : after (exec .dflip (decoding .dFlip [])) (fun t => decide (t.ridx = 84 ∧ t.tph = .dPoll)) = true ∧
    after (exec .dflip { decoding .dFlip [] with ridx := 84 }) (fun t => decide (t.ridx = 0)) = true := by decide

/-- U8: an unwritten byte has no value. -/
theorem test_unwritten_faults : exec .dang (decoding .dAng [0, 0, 0]) = .fault (.unwrittenRead .pool 3) := by rfl

/-- P5b of 95_test_vectors.md, R189: with byte 2 overwritten under the decode, DANG publishes 0x3400 or 0x3412. -/
theorem test_raced_read : State.candidates { decoding .dAng f1 with pool := bytesAt 0 (frameOf 0xAA 0x55 0x00 0x34)
                                                                    shadow := [(2, some 0x12)] } 2 =
    [some 0x00, some 0x12] := by decide

/-- V-HS-3 and V-HS-4 as records. -/
theorem test_desc_records :
    after (exec (.descOk [0x11, 0x22, 0x33, 0x44, 0x55, 0x66, 0x82]) waiting) (fun t =>
      decide (t.link = .streaming ∧ t.rxa = true ∧ t.rxsp = .pool)) = true ∧
    after (exec (.descBad [0, 0, 0, 0, 0, 0, 0]) waiting) (fun t =>
      decide (t.link = .awaiting ∧ t.rxa = false ∧ t.cntHsbad = 1)) = true := by decide

/-- Views of 10_state.md R30, from the table of 95_test_vectors.md. -/
theorem test_views : State.angle15 { State.reset with pubAngleQ6 := 0xB412 } = 0x3412 ∧
    State.sFlag { State.reset with pubAngleQ6 := 0xB412 } = 1 ∧
    State.angleDegInt { State.reset with pubAngleQ6 := 0xB412 } = 720 ∧
    State.angleDegFrac { State.reset with pubAngleQ6 := 0xB412 } = 18 := by decide

/-- The codes of 10_state.md R23, R27, R28, R31 and 60_exceptions.md R210. -/
theorem test_codes : LinkState.code .streaming = 2 ∧ Phase.code .dFlip = 8 ∧ Phase.code .dAng = 6 ∧
    DecodeStatus.code .csumFail = 4 ∧ spaceCode .pool = 1 ∧ Drop.code (.overrun 0) = 2 := by decide

/-- V-RP-1 then V-DEC-1 as one record. -/
theorem test_frame_record : after (exec (.frameSynced f1) streaming) (fun t =>
    decide (t.pubAngleQ6 = 0x3412 ∧ t.ridx = 84 ∧ t.widx = 84 ∧ t.rxa = true ∧ t.rxbase = 84 ∧ t.cntAcc = 1)) = true := by
  decide +kernel

/-- V-DEC-2 as one record. -/
theorem test_frame_record_unsynced : after (exec (.frameUnsynced (frameOf 0xA5 0x28 0x12 0x34)) streaming) (fun t =>
    decide (t.pubValid = false ∧ t.ridx = 84 ∧ t.cntSync = 1 ∧ t.dstat = .syncFail)) = true := by
  decide +kernel

/-! ## States that meet the invariants -/

theorem bytesAt_cons (base : Nat) (b : Byte) (l : List Byte) : bytesAt base (b :: l) = (base, b) :: bytesAt (base + 1) l := by
  simp [bytesAt, List.range'_succ]

theorem read_bytesAt (l : List Byte) : ∀ base k, k < l.length → Memory.read (bytesAt base l) (base + k) = l[k]? := by
  induction l with
  | nil => intro base k h; simp at h
  | cons b l ih =>
    intro base k h
    rw [bytesAt_cons, Memory.read]
    cases k with
    | zero => simp
    | succ k =>
      rw [if_neg (by omega), show base + (k + 1) = base + 1 + k by omega, ih (base + 1) k (by simpa using h)]
      rfl

theorem written_bytesAt {l : List Byte} {base n : Nat} (h : base + n ≤ l.length) : Written (bytesAt 0 l) base n := by
  intro k hk
  have := read_bytesAt l 0 (base + k) (by omega)
  rw [Nat.zero_add] at this
  rw [this]
  simp
  omega

theorem bounds_bytesAt (l : List Byte) : ∀ base, ∀ c ∈ bytesAt base l, base ≤ c.1 ∧ c.1 < base + l.length := by
  induction l with
  | nil => intro base c h; simp [bytesAt] at h
  | cons b l ih =>
    intro base c h
    rw [bytesAt_cons, List.mem_cons] at h
    rcases h with rfl | h
    · simp
    · have := ih (base + 1) c h
      simp only [List.length_cons]
      omega

theorem wf_bytesAt (l : List Byte) : ∀ base, Memory.wf (bytesAt base l) := by
  induction l with
  | nil => intro base; exact List.Pairwise.nil
  | cons b l ih =>
    intro base
    rw [bytesAt_cons]
    exact List.Pairwise.cons (fun c hc => (bounds_bytesAt l _ c hc).1) (ih _)

theorem regInv_states : RegInv streaming ∧ RegInv (answered [0, 0, 0, 0, 0, 0, 0x83]) ∧ RegInv (overrun .halt) ∧
    RegInv (decoding .dCsum f1) ∧ RegInv (handed f1) := by
  refine ⟨?_, ?_, ?_, ?_, ?_⟩ <;> constructor <;> decide

/-- The frame of `handed` was handed over by one RXC.FRAME. -/
def counted : State := { handed f1 with trace := [.line .rxcFrame] }

/-- Frame 1 is under decode when RXC.FRAME hands over frame 2 and arms buffer A again (program P5). -/
def tearing : State :=
  { decoding .dAng f1 with
    ready := true, widx := 0, rxbase := 0, pool := bytesAt 0 (f1 ++ f1)
    trace := [.line .rxcFrame, .line .dpoll, .line .dclr, .line .rxcFrame] }

theorem lockStep_states : RegInv counted ∧ LockStep counted ∧ RegInv tearing ∧ LockStep tearing ∧ Torn tearing := by
  refine ⟨?_, ?_, ?_, ?_, ?_⟩
  · constructor <;> decide
  · constructor <;> decide
  · constructor <;> decide
  · constructor <;> decide
  · unfold Torn
    decide

theorem dataInv_states : DataInv streaming ∧ DataInv (answered [0, 0, 0, 0, 0, 0, 0x83]) ∧ DataInv (overrun .halt) ∧
    DataInv (decoding .dCsum f1) := by
  refine ⟨?_, ?_, ⟨?_, ?_, ?_, ?_, ?_, ?_, ?_, ?_⟩, ⟨?_, ?_, ?_, ?_, ?_, ?_, ?_, ?_⟩⟩
  · constructor <;> (try unfold Written) <;> decide
  · constructor <;> (try unfold Written) <;> decide
  · exact fun h => nomatch h
  · exact fun _ h => nomatch h
  · exact fun h => nomatch h
  · exact fun _ _ => written_bytesAt (by decide)
  · exact fun _ => written_bytesAt (by decide)
  · exact fun h => nomatch h
  · exact fun _ h => nomatch h
  · decide
  · exact fun _ h => nomatch h
  · exact fun h => nomatch h
  · exact fun _ _ _ h => nomatch h
  · exact fun h => nomatch h
  · exact fun h => nomatch h
  · exact fun _ => written_bytesAt (by decide)
  · exact fun _ h => nomatch h
  · decide

theorem memInv_states : MemInv streaming ∧ MemInv (answered [0, 0, 0, 0, 0, 0, 0x83]) ∧ MemInv (overrun .halt) ∧
    MemInv (decoding .dCsum f1) := by
  refine ⟨?_, ?_, ⟨wf_bytesAt _ _, ?_, ?_, ?_⟩, ⟨wf_bytesAt _ _, ?_, ?_, ?_⟩⟩
  · constructor <;> decide
  · constructor <;> decide
  · exact List.Pairwise.nil
  · exact fun c hc => (bounds_bytesAt _ _ c hc).2
  · exact fun _ h => nomatch h
  · exact List.Pairwise.nil
  · exact fun c hc => Nat.lt_of_lt_of_le (bounds_bytesAt _ _ c hc).2 (by decide)
  · exact fun _ h => nomatch h

theorem countInv_states : CountInv streaming ∧ CountInv (answered [0, 0, 0, 0, 0, 0, 0x83]) ∧ CountInv (overrun .halt) ∧
    CountInv (decoding .dCsum f1) := by
  refine ⟨?_, ?_, ?_, ?_⟩ <;> constructor <;> decide

/-- Four states of the invariant: streaming, a wrong descriptor to serve, an overrun to serve, a frame under decode. -/
theorem blockInv_states : BlockInv streaming ∧ BlockInv (answered [0, 0, 0, 0, 0, 0, 0x83]) ∧ BlockInv (overrun .halt) ∧
    BlockInv (decoding .dCsum f1) :=
  ⟨⟨regInv_states.1, dataInv_states.1, memInv_states.1, countInv_states.1⟩,
   ⟨regInv_states.2.1, dataInv_states.2.1, memInv_states.2.1, countInv_states.2.1⟩,
   ⟨regInv_states.2.2.1, dataInv_states.2.2.1, memInv_states.2.2.1, countInv_states.2.2.1⟩,
   ⟨regInv_states.2.2.2.1, dataInv_states.2.2.2, memInv_states.2.2.2, countInv_states.2.2.2⟩⟩

/-! ## Witnesses: a state and operands that meet the hypotheses of each statement, every clause of it -/

theorem witness_StepRunsTheScriptedLine :
    decode .evt [0x11, 0xA5, 0x02] = .ok (.taRxb 0xA5, [0x02]) ∧ decode .evt [0x02] = .ok (.waits, []) ∧
    decode .evt [0xFF] = .error (.unassignedId 0xFF) ∧
    (∃ s : State, s.script = [{ fmt := .evt, bytes := [0x11, 0xA5, 0x02] }]) :=
  ⟨by rfl, by rfl, by rfl, { streaming with script := [{ fmt := .evt, bytes := [0x11, 0xA5, 0x02] }] }, rfl⟩

theorem witness_UnscriptedStepServesTheInterruptFirst :
    (landed f1).script = [] ∧ (landed f1).rxcPend = true ∧ streaming.script = [] ∧ streaming.rxcPend = false := by decide

theorem witness_DecodeOfEncode : (Instr.taArm .pool 84 84).wf = true ∧ (Instr.taTx Config.cmdBytes).wf = true ∧
    (Instr.descOk [0xFF, 0, 0, 0, 0, 0, 0x82]).wf = true ∧ (Instr.descBad [0, 0, 0, 0, 0, 0, 0x83]).wf = true ∧
    (Instr.frameSynced f1).wf = true ∧ (Instr.frameUnsynced (frameOf 0xA5 0x28 0x12 0x34)).wf = true := by decide

theorem witness_EncodeOfDecode : decode .d7 [0, 0, 0, 0, 0, 0, 0x82, 0x55] =
    .ok (.descOk [0, 0, 0, 0, 0, 0, 0x82], [0x55]) := by rfl

/-- The ends of each unassigned range. -/
theorem witness_UnassignedIdsAreRefused : ∀ id ∈ ([0x0A, 0x0F, 0x13, 0x17, 0x1D, 0x1E, 0x20, 0xFF] : List Byte),
    (0x0A ≤ id.toNat ∧ id.toNat ≤ 0x0F) ∨ (0x13 ≤ id.toNat ∧ id.toNat ≤ 0x17) ∨
      (0x1D ≤ id.toNat ∧ id.toNat ≠ 0x1F) := by decide

theorem witness_FrameRecordsAreClassifiedBySync : f1.length = 84 ∧ syncOf (f1.getD 0 0) (f1.getD 1 0) = 0xA5 ∧
    (frameOf 0xA5 0x28 0x12 0x34).length = 84 ∧
    syncOf ((frameOf 0xA5 0x28 0x12 0x34).getD 0 0) ((frameOf 0xA5 0x28 0x12 0x34).getD 1 0) ≠ 0xA5 := by decide

theorem witness_ArmRequest : State.reset.rxa = false ∧ waiting.rxa = true := by decide

/-- The last and the first byte of a record, in each space. -/
theorem witness_ReceivedByteLands : ∀ s ∈ [{ waiting with rxcnt := 6 }, waiting,
      { streaming with rxbase := 84, rxcnt := 83 }, streaming],
    s.rxa = true ∧ adapterOffset s < spaceLen s.rxsp := by decide

/-- A byte that falls on the buffer under decode (its first and last offset), and one that falls on the other buffer. -/
theorem witness_ReceivedByteTears : (∀ s ∈ [tearing, { tearing with rxcnt := 83 }],
      s.rxa = true ∧ adapterOffset s < spaceLen s.rxsp ∧ s.tph = .dAng ∧ s.rxsp = .pool ∧
      s.ridx.toNat ≤ adapterOffset s ∧ adapterOffset s < s.ridx.toNat + 84) ∧
    ¬ (adapterOffset { tearing with rxbase := 84 } < tearing.ridx.toNat + 84) := by decide

/-- The first offset above each space. -/
theorem witness_StoreOutsideItsSpaceFaults : ∀ s ∈ [{ waiting with rxcnt := 7 },
      { streaming with rxbase := 84, rxcnt := 84 }],
    s.rxa = true ∧ adapterOffset s = spaceLen s.rxsp := by decide

theorem witness_UnarmedByteIsLost : State.reset.rxa = false := by decide

/-- A whole frame into buffer B, and a frame cut short. -/
theorem witness_WholeFrameLandsInOrder : ∀ f ∈ [f1, [0xA6]],
    ({ streaming with rxbase := 84 } : State).rxa = true ∧ 0 < f.length ∧ f.length ≤ streaming.rxlen.toNat ∧
    streaming.rxsp = .pool ∧ streaming.rxcnt = 0 ∧ streaming.rxcPend = false ∧
    (84 : BitVec 8).toNat + streaming.rxlen.toNat ≤ 168 := by decide

theorem witness_OnlyTheCommandIsSent : ownStep .start = true ∧ ∃ t, exec .start State.reset = .next t :=
  ⟨rfl, _, rfl⟩

theorem witness_StartSendsAndArms : State.reset.tph = .tIdle ∧ State.reset.rxa = false ∧
    ({ State.reset with rxa := true } : State).tph = .tIdle ∧ waiting.tph ≠ .tIdle := by decide

theorem witness_WaitsPollsTheLink : waiting.tph = .tWait ∧ waiting.link ≠ .streaming ∧
    ({ streaming with tph := .tWait } : State).link = .streaming ∧ streaming.tph ≠ .tWait := by decide

theorem witness_IdleCompletionOnlyClears : ({ State.reset with rxcPend := true } : State).link = .idle ∧
    ¬ (State.reset.rxcPend = true ∧ State.reset.link = .idle) ∧ RegInv streaming :=
  ⟨by decide, by decide, regInv_states.1⟩

/-- Where neither handshake variant is selected: nothing pending, and a completion in another link state. -/
theorem witness_HandshakeVariantsNotSelected : ∀ s ∈ [State.reset, { streaming with rxcPend := true }],
    ¬ (s.rxcPend = true ∧ s.link = .awaiting) := by decide

/-- With nothing armed, and with a receive armed. -/
theorem witness_MatchingDescriptorStartsStreaming : ∀ s ∈ [answered [0, 0, 0, 0, 0, 0, 0x82],
      { answered [0, 0, 0, 0, 0, 0, 0x82] with rxa := true }],
    s.rxcPend = true ∧ s.link = .awaiting ∧ Memory.read s.desc 6 = some 0x82 := by decide

theorem witness_WrongDescriptorIsDropped : (answered [0, 0, 0, 0, 0, 0, 0x83]).rxcPend = true ∧
    (answered [0, 0, 0, 0, 0, 0, 0x83]).link = .awaiting ∧
    Memory.read (answered [0, 0, 0, 0, 0, 0, 0x83]).desc 6 = some 0x83 ∧ (0x83 : Byte) ≠ 0x82 := by decide

theorem witness_LinkMovesAlongOnePath : RegInv streaming ∧ ∃ t, exec .dpoll streaming = .next t :=
  ⟨regInv_states.1, _, rfl⟩

/-- One state for each variant, and none pending. -/
theorem witness_DispatchRunsExactlyOneVariant :
    ({ State.reset with rxcPend := true } : State).link = .idle ∧
    ((answered [0, 0, 0, 0, 0, 0, 0x82]).rxcPend = true ∧
      Memory.read (answered [0, 0, 0, 0, 0, 0, 0x82]).desc 6 = some 0x82) ∧
    Memory.read (answered [0, 0, 0, 0, 0, 0, 0x00]).desc 6 = some 0x00 ∧
    ((landed f1).rxcPend = true ∧ (landed f1).link = .streaming ∧ (landed f1).ready = false) ∧
    ((overrun .halt).rxcPend = true ∧ (overrun .halt).ready = true) ∧ streaming.rxcPend = false ∧
    ∃ t, exec .rxc (landed f1) = .next t :=
  ⟨by decide, by decide, by decide, by decide, by decide, by decide, _, rfl⟩

theorem witness_DispatchNeverBlocks : ∀ s ∈ [landed f1, answered [0, 0, 0, 0, 0, 0, 0x00], overrun .rearmSame],
    s.rxcPend = true ∧ s.rxa = false ∧ (s.link = .awaiting → (Memory.read s.desc 6).isSome = true) := by decide

theorem witness_FrameIsHandedOver :
    ((landed f1).rxcPend = true ∧ (landed f1).link = .streaming ∧ (landed f1).ready = false ∧ (landed f1).rxa = false) ∧
    ({ landed f1 with rxa := true } : State).rxa = true ∧
    ¬ (streaming.rxcPend = true ∧ streaming.link = .streaming ∧ streaming.ready = false) := by decide

theorem witness_OverrunDropsTheNewFrame :
    (∀ p ∈ [Config.OvrPolicy.halt, .rearmSame], (overrun p).rxcPend = true ∧ (overrun p).link = .streaming ∧
      (overrun p).ready = true ∧ (overrun p).cfg.ovrPolicy = p ∧ (overrun p).rxa = false) ∧
    ({ overrun .rearmSame with rxa := true } : State).rxa = true ∧
    ¬ (streaming.rxcPend = true ∧ streaming.link = .streaming ∧ streaming.ready = true) := by decide

theorem witness_DpollSeesTheSignal : (handed f1).tph = .dPoll ∧ (handed f1).ready = true ∧ streaming.tph = .dPoll ∧
    streaming.ready = false ∧ waiting.tph ≠ .dPoll := by decide

theorem witness_DclrTakesTheFrame : ({ handed f1 with tph := .dClr } : State).tph = .dClr ∧ streaming.tph ≠ .dClr := by
  decide

/-- A frame in buffer A, and a frame in buffer B. -/
theorem frameAt_states (p : Phase) {l : List Byte} (h : l.length = 84) :
    FrameAt (decoding p l) (fun i => l.getD i 0) ∧
    FrameAt { decoding p [] with ridx := 84, pool := bytesAt 84 l } (fun i => l.getD i 0) := by
  refine ⟨⟨show (0 : BitVec 8).toNat + 84 ≤ 168 by decide, fun i hi => ?_⟩,
    ⟨show (84 : BitVec 8).toNat + 84 ≤ 168 by decide, fun i hi => ?_⟩⟩
  · refine (read_bytesAt l 0 i (by omega)).trans ?_
    simp [h, hi]
  · refine (read_bytesAt l 84 i (by omega)).trans ?_
    simp [h, hi]

theorem unraced_states (p : Phase) (f : List Byte) : Unraced (decoding p f) := fun _ he => nomatch he

theorem witness_DsyncChecksTheSyncByte : (decoding .dSync f1).tph = .dSync ∧
    FrameAt (decoding .dSync f1) (fun i => f1.getD i 0) ∧ Unraced (decoding .dSync f1) ∧
    (hi4 (f1.getD 0 0) = 0xA ∧ hi4 (f1.getD 1 0) = 0x5) ∧
    FrameAt { decoding .dSync [] with ridx := 84, pool := bytesAt 84 (frameOf 0xA5 0x28 0x12 0x34) }
      (fun i => (frameOf 0xA5 0x28 0x12 0x34).getD i 0) ∧
    ¬ (hi4 ((frameOf 0xA5 0x28 0x12 0x34).getD 0 0) = 0xA ∧ hi4 ((frameOf 0xA5 0x28 0x12 0x34).getD 1 0) = 0x5) ∧
    streaming.tph ≠ .dSync :=
  ⟨rfl, (frameAt_states _ rfl).1, unraced_states _ _, by decide, (frameAt_states _ rfl).2, by decide, by decide⟩

theorem witness_DcsumValidatesTheChecksum : (decoding .dCsum f1).tph = .dCsum ∧
    FrameAt (decoding .dCsum f1) (fun i => f1.getD i 0) ∧ Unraced (decoding .dCsum f1) ∧
    ((List.range 82).foldr (fun i a => f1.getD (2 + i) 0 ^^^ a) (0x00 : Byte)).toNat =
      16 * (lo4 (f1.getD 1 0)).toNat + (lo4 (f1.getD 0 0)).toNat ∧
    FrameAt (decoding .dCsum (f1.take 83 ++ [0x01])) (fun i => (f1.take 83 ++ [0x01]).getD i 0) ∧
    ((List.range 82).foldr (fun i a => (f1.take 83 ++ [0x01]).getD (2 + i) 0 ^^^ a) (0x00 : Byte)).toNat ≠
      16 * (lo4 (f1.getD 1 0)).toNat + (lo4 (f1.getD 0 0)).toNat ∧
    streaming.tph ≠ .dCsum :=
  ⟨rfl, (frameAt_states _ rfl).1, unraced_states _ _, by decide, (frameAt_states _ rfl).1, by decide, by decide⟩

theorem witness_DangPublishesTheAngle : (decoding .dAng f1).tph = .dAng ∧
    FrameAt (decoding .dAng f1) (fun i => f1.getD i 0) ∧ Unraced (decoding .dAng f1) ∧ streaming.tph ≠ .dAng :=
  ⟨rfl, (frameAt_states _ rfl).1, unraced_states _ _, by decide⟩

theorem witness_DflipFlipsTheReadOffset : (decoding .dFlip f1).tph = .dFlip ∧ streaming.tph ≠ .dFlip := by decide

/-- One frame for each verdict. -/
theorem witness_DecodeIsTheReferenceFunction : (decoding .dClr f1).tph = .dClr ∧
    FrameAt (decoding .dClr f1) (fun i => f1.getD i 0) ∧ decodeFrame (fun i => f1.getD i 0) = .accept 0x3412 ∧
    FrameAt (decoding .dClr (f1.take 83 ++ [0x01])) (fun i => (f1.take 83 ++ [0x01]).getD i 0) ∧
    decodeFrame (fun i => (f1.take 83 ++ [0x01]).getD i 0) = .csumFail ∧
    FrameAt { decoding .dClr [] with ridx := 84, pool := bytesAt 84 (frameOf 0xA5 0x28 0x12 0x34) }
      (fun i => (frameOf 0xA5 0x28 0x12 0x34).getD i 0) ∧
    decodeFrame (fun i => (frameOf 0xA5 0x28 0x12 0x34).getD i 0) = .syncFail :=
  ⟨rfl, (frameAt_states _ rfl).1, test_decode_frames.1, (frameAt_states _ rfl).1, test_decode_bad_sums.1,
   (frameAt_states _ rfl).2, test_decode_frames.2.1⟩

/-- With two bytes overwritten under the decode, in each of the three phases. -/
theorem witness_RacedReadsReturnOldOrNewBytes (p : Phase) :
    AllReadable { decoding p f1 with shadow := [(2, some 0x00), (3, some 0x5A)] } ∧
    ({ decoding p f1 with shadow := [(2, some 0x00), (3, some 0x5A)] } : State).tph = p := by
  refine ⟨⟨show (0 : BitVec 8).toNat + 84 ≤ 168 by decide, fun i hi c hc => ?_⟩, rfl⟩
  rcases List.mem_cons.1 hc with h | hc
  · rw [show c = f1[i]? from h.trans (read_bytesAt f1 0 i hi)]
    simpa [f1] using hi
  · obtain ⟨e, he, rfl⟩ := List.mem_map.1 hc
    have : e ∈ [(2, some (0x00 : Byte)), (3, some 0x5A)] := (List.mem_filter.1 he).1
    simp only [List.mem_cons, List.not_mem_nil, or_false] at this
    rcases this with rfl | rfl <;> rfl

theorem witness_BuiltFramesAreAccepted : (List.replicate 80 (0xFF : Byte)).length = 80 := by decide

/-- The changed byte at 2 and at 83. -/
theorem witness_ChecksumDetectsOneChangedByte : decodeFrame (fun i => f1.getD i 0) = .accept 0x3412 ∧
    (fun i => f1.getD i 0) 2 ≠ (fun i => (frameOf 0xA6 0x52 0x13 0x34).getD i 0) 2 ∧
    (∀ j, j < 84 → j ≠ 2 → (frameOf 0xA6 0x52 0x13 0x34).getD j 0 = f1.getD j 0) ∧
    f1.getD 83 0 ≠ (f1.take 83 ++ [0x01]).getD 83 0 ∧
    (∀ j, j < 84 → j ≠ 83 → (f1.take 83 ++ [0x01]).getD j 0 = f1.getD j 0) :=
  ⟨test_decode_frames.1, by decide, by decide, by decide, by decide⟩

theorem witness_PhaseGraph : isRecord .dpoll = false ∧ ∃ t, exec .dpoll (handed f1) = .next t := ⟨rfl, _, rfl⟩

theorem witness_DescriptorRecordDecidesTheHandshake : waiting.link = .awaiting ∧ waiting.rxa = true ∧
    waiting.rxsp = .desc ∧ waiting.rxlen = 7 ∧ waiting.rxcnt = 0 ∧
    ([0xFF, 0, 0, 0, 0, 0, 0x82] : List Byte)[6]? = some 0x82 ∧
    ([0x82, 0, 0, 0, 0, 0, 0x83] : List Byte)[6]? ≠ some 0x82 := by decide

theorem streamReady_streaming : StreamReady streaming := by
  unfold StreamReady
  decide

theorem witness_FrameRecordIsDecoded : StreamReady streaming ∧ f1.length = 84 :=
  ⟨streamReady_streaming, by decide⟩

theorem witness_EveryFrameOfAStreamIsDecoded :
    P4 [f1, frameOf 0xA5 0x28 0x12 0x34, frameOf 0xAA 0x55 0x00 0x5A] ∧ StreamReady streaming ∧ CountInv streaming :=
  ⟨by unfold P4; decide, streamReady_streaming, countInv_states.1⟩

theorem witness_RecordsCompleteInEverySafeState : BlockInv streaming ∧ BlockInv (decoding .dCsum f1) :=
  ⟨blockInv_states.1, blockInv_states.2.2.2⟩

theorem scheduleOk_streaming : ScheduleOk streaming := fun _ _ _ _ _ h => nomatch h

theorem witness_EveryStepKeepsTheInvariant : BlockInv streaming ∧ ScheduleOk streaming ∧ ∃ t, step streaming = .next t :=
  ⟨blockInv_states.1, scheduleOk_streaming, _, rfl⟩

theorem witness_NothingFaultsFromASafeState : BlockInv (decoding .dCsum f1) := blockInv_states.2.2.2

theorem witness_OperationsCompleteExactlyWhereEnabled : BlockInv (answered [0, 0, 0, 0, 0, 0, 0x83]) ∧
    enabled (answered [0, 0, 0, 0, 0, 0, 0x83]) .rxcHsbad = true ∧
    enabled (answered [0, 0, 0, 0, 0, 0, 0x83]) .rxcHsok = false :=
  ⟨blockInv_states.2.1, by decide, by decide⟩

theorem witness_EveryStepKeepsLockStep : RegInv counted ∧ LockStep counted ∧ ∃ t, step counted = .next t :=
  ⟨lockStep_states.1, lockStep_states.2.1, _, rfl⟩

theorem witness_TornReadNeedsTwoFramesAhead : RegInv tearing ∧ LockStep tearing ∧ Torn tearing := lockStep_states.2.2

/-- P1 holds of a completion served after the decode: the state before it is ahead by none. -/
theorem witness_PromptConsumerNeverTears : RegInv counted ∧ LockStep counted ∧ nW counted ≤ nR counted + 1 ∧
    P1 counted .dpoll ∧ ownStep .dpoll = true ∧ (∃ t, exec .dpoll counted = .next t) ∧
    P1 (landed f1) .rxcFrame ∧ (∃ t, exec .rxcFrame (landed f1) = .next t) :=
  ⟨lockStep_states.1, lockStep_states.2.1, by decide, (fun h => nomatch h), rfl, ⟨_, rfl⟩, (fun _ _ => by decide), _, rfl⟩

theorem witness_RegistersAreWrittenOnlyByTheirOperations : isRecord .rxcFrame = false ∧ Instr.rxcFrame ≠ .reset ∧
    ∃ t, exec .rxcFrame (landed f1) = .next t := ⟨rfl, by decide, _, rfl⟩

theorem witness_HandshakeMismatchStallsForEver : BlockInv (answered [0, 0, 0, 0, 0, 0, 0x83]) ∧
    (∃ t, exec .rxcHsbad (answered [0, 0, 0, 0, 0, 0, 0x83]) = .next t) ∧
    StallMismatch { waiting with rxa := false } ∧ ownStep (.taRxb 0xA6) = true ∧ Instr.taRxb 0xA6 ≠ .reset ∧
    ∃ t, exec (.taRxb 0xA6) { waiting with rxa := false } = .next t :=
  ⟨blockInv_states.2.1, ⟨_, rfl⟩, by unfold StallMismatch; decide, rfl, by decide, _, rfl⟩

theorem witness_HaltedReceptionNeverResumes : (overrun .halt).cfg.ovrPolicy = .halt ∧ BlockInv (overrun .halt) ∧
    (∃ t, exec .rxcOvr (overrun .halt) = .next t) ∧
    ReceptionOver { handed f1 with rxa := false } ∧ (∃ t, exec .dpoll { handed f1 with rxa := false } = .next t) ∧
    StallHalt { streaming with rxa := false } ∧ ∃ t, exec .dpoll { streaming with rxa := false } = .next t :=
  ⟨rfl, blockInv_states.2.2.1, ⟨_, rfl⟩, by unfold ReceptionOver; decide, ⟨_, rfl⟩, by unfold StallHalt; decide, _, rfl⟩

theorem witness_SilentBlockStaysWhereItIs : StallIdle State.reset ∧ (∃ t, exec (.taRxb 0x55) State.reset = .next t) ∧
    StallSilent { waiting with rxcnt := 6 } ∧ (∃ t, exec .waits { waiting with rxcnt := 6 } = .next t) ∧
    StallMidFrame { streaming with rxcnt := 40 } ∧ ∃ t, exec .dpoll { streaming with rxcnt := 40 } = .next t :=
  ⟨by unfold StallIdle; decide, ⟨_, rfl⟩, by unfold StallSilent; decide, ⟨_, rfl⟩, by unfold StallMidFrame; decide,
   _, rfl⟩

theorem blockInv_mismatch : BlockInv { waiting with rxa := false } := by
  refine ⟨?_, ?_, ?_, ?_⟩ <;> constructor <;> (try unfold Written) <;> decide

/-- A sensor that answers 82 and sends F1. -/
def sensor : Sensor := { early := [], descriptor := [0, 0, 0, 0, 0, 0, 0x82], frames := [f1] }

/-- A byte, and a record, that a block stalled after a mismatch loses. -/
theorem witness_PromptServiceLosesNoByte : BlockInv { waiting with rxa := false } ∧
    P2 { waiting with rxa := false } (.taRxb 0xA6) ∧ P3 sensor { waiting with rxa := false } (.taRxb 0xA6) ∧
    (∃ t, exec (.taRxb 0xA6) { waiting with rxa := false } = .next t ∧
      .lost 0xA6 ∈ newEvents { waiting with rxa := false } t) ∧
    P2 { waiting with rxa := false } (.descBad [0xA6]) ∧ P3 sensor { waiting with rxa := false } (.descBad [0xA6]) ∧
    ∃ t, exec (.descBad [0xA6]) { waiting with rxa := false } = .next t ∧
      .lost 0xA6 ∈ newEvents { waiting with rxa := false } t :=
  ⟨blockInv_mismatch, fun _ => ⟨rfl, nofun⟩, ⟨rfl, nofun⟩, ⟨_, rfl, by decide⟩, fun _ => ⟨rfl, nofun⟩, ⟨rfl, nofun⟩,
   _, rfl, by decide⟩

/-- What breaks P2 (R247): a byte or a record while a notification is pending, a frame that completes in mid-record; and what
breaks P3 (R248): a record before START, a sensor that was already sending, whenever START comes. -/
theorem test_broken_premises :
    ¬ P2 (landed f1) (.taRxb 0xA6) ∧ ¬ P2 (landed f1) (.frameSynced f1) ∧
    ¬ P2 { streaming with rxcnt := 1 } (.frameSynced f1) ∧ P2 streaming (.frameSynced f1) ∧
    ¬ P3 sensor State.reset (.frameSynced f1) ∧ ¬ P3 { sensor with early := [0xA6] } waiting (.taRxb 0xA6) ∧
    P3 sensor waiting (.taRxb 0xA6) := by
  unfold P2 P3
  decide

/-- A frame row on a receive that already holds a byte: it completes one byte early, the row's last byte is lost, and the next
receive is empty (log entry 9). -/
theorem test_frame_row_in_mid_frame : after (exec (.frameSynced f1) { streaming with rxcnt := 1, pool := [(0, 0xA6)] })
    (fun t => decide (.lost 0x00 ∈ newEvents streaming t ∧ t.rxa = true ∧ t.rxcnt = 0 ∧ t.widx = 84)) = true := by
  decide +kernel

theorem witness_SettleReachesASettledState : BlockInv (overrun .halt) ∧ (overrun .halt).settled = false :=
  ⟨blockInv_states.2.2.1, by decide⟩

theorem witness_AngleViews : State.reset.pubValid = false ∧ ({ State.reset with pubValid := true } : State).pubValid = true := by
  decide

theorem witness_AnglePulseMarksDang : isRecord .dang = false ∧
    ∃ t, exec .dang (decoding .dAng [0, 0, 0x12, 0x34]) = .next t ∧
      anglePub (decoding .dAng [0, 0, 0x12, 0x34]) t = true ∧
      .pub 0x3412 ∈ newEvents (decoding .dAng [0, 0, 0x12, 0x34]) t := ⟨rfl, _, rfl, by decide, by decide⟩

/-- `p` at every operation of a run, by evaluation. -/
def holdsAlong (p : State → Instr → Bool) (is : List Instr) (s : State) : Bool :=
  match is with
  | [] => true
  | i :: rest => p s i && (match exec i s with
    | .next t => holdsAlong p rest t
    | .fault _ => true
    | .refused _ => true)

theorem along_of_holds {P : State → Instr → Prop} {p : State → Instr → Bool} (hp : ∀ s i, p s i = true → P s i)
    (is : List Instr) : ∀ s, holdsAlong p is s = true → Along P is s := by
  induction is with
  | nil => exact fun _ _ => trivial
  | cons i rest ih =>
    intro s h
    obtain ⟨h1, h2⟩ := Bool.and_eq_true_iff.1 h
    refine ⟨hp s i h1, fun t ht => ih t ?_⟩
    rw [ht] at h2
    exact h2

/-- START, the descriptor byte by byte, the handshake, then F1 as a record. -/
def promptRun : List Instr :=
  [.start] ++ sensor.descriptor.map .taRxb ++ [.rxc, .waits, .frameSynced f1]

theorem witness_EveryFrameIsDecodedUnderThePremises :
    BlockInv { State.reset with trace := [.line .reset] } ∧ LockStep { State.reset with trace := [.line .reset] } ∧
    sensor.descriptor.length = 7 ∧ sensor.descriptor[6]? = some 0x82 ∧ sensor.Delivers promptRun ∧
    (∀ i ∈ promptRun, ownStep i = true ∧ i ≠ .reset) ∧
    Along P1 promptRun { State.reset with trace := [.line .reset] } ∧
    Along P2 promptRun { State.reset with trace := [.line .reset] } ∧
    Along (P3 sensor) promptRun { State.reset with trace := [.line .reset] } ∧ P4 sensor.frames ∧
    (∃ t, runInstrs promptRun { State.reset with trace := [.line .reset] } = .next t ∧ t.settled = true) := by
  refine ⟨?_, ?_, rfl, rfl, ?_, by decide, ?_, ?_, ?_, ?_, ?_⟩
  · refine ⟨?_, ?_, ?_, ?_⟩ <;> constructor <;> (try unfold Written) <;> decide
  · constructor <;> decide
  · exact ⟨[], by decide⟩
  · exact along_of_holds (p := fun s i => decide (servesCompletion i = true → s.link = .streaming → nR s = nW s))
      (fun _ _ h => of_decide_eq_true h) _ _ (by decide +kernel)
  · exact along_of_holds (p := fun s i => decide (received i ≠ [] →
        s.rxcPend = false ∧ (s.rxa = true → s.rxcnt.toNat + (received i).length ≤ s.rxlen.toNat)))
      (fun _ _ h => of_decide_eq_true h) _ _ (by decide +kernel)
  · exact along_of_holds (p := fun s i => decide (received i ≠ [] → s.link ≠ .idle))
      (fun _ _ h => ⟨rfl, of_decide_eq_true h⟩) _ _ (by decide +kernel)
  · unfold P4
    decide
  · have h : after (runInstrs promptRun { State.reset with trace := [.line .reset] }) State.settled = true := by
      decide +kernel
    revert h
    cases runInstrs promptRun { State.reset with trace := [.line .reset] } with
    | next t => exact fun h => ⟨t, rfl, h⟩
    | fault e => exact nofun
    | refused e => exact nofun

end Sys2Proof.Tests
end

section
/-! SUPPORT. The rules that the proofs about the invariant share: the two legal offsets, written bytes, the phases, and
what each part of `BlockInv` gives in the states in which an operation runs. -/

namespace Sys2Proof.Safety

open Sys2Proof.Machine

/-! ## The two legal offsets (R40 items 1 and 2) -/

theorem flipOffset_flipOffset (x : BitVec 8) : flipOffset (flipOffset x) = x := by
  simp [flipOffset]

theorem flipOffset_legal {x : BitVec 8} (hx : x = 0 ∨ x = 84) : flipOffset x = 0 ∨ flipOffset x = 84 := by
  rcases hx with rfl | rfl <;> decide

/-- Of two legal offsets one is the flip of the other exactly when they differ. -/
theorem flipOffset_eq_iff_ne {x y : BitVec 8} (hx : x = 0 ∨ x = 84) (hy : y = 0 ∨ y = 84) :
    flipOffset x = y ↔ x ≠ y := by
  rcases hx with rfl | rfl <;> rcases hy with rfl | rfl <;> decide

theorem legal_toNat_le {x : BitVec 8} (hx : x = 0 ∨ x = 84) : x.toNat ≤ 84 := by
  rcases hx with rfl | rfl <;> decide

/-! ## Written bytes -/

theorem Written.zero (m : Memory) (base : Nat) : Written m base 0 := fun _ h => absurd h (Nat.not_lt_zero _)

/-- A byte that is written stays written. -/
theorem Written.write {m : Memory} {base n : Nat} (h : Written m base n) (a : Nat) (b : Byte) :
    Written (Memory.write m a b) base n := by
  intro k hk
  rw [Memory.read_write]
  split
  · rfl
  · exact h k hk

/-- The next byte of a receive extends what has landed. -/
theorem Written.extend {m : Memory} {base n : Nat} (h : Written m base n) (b : Byte) :
    Written (Memory.write m (base + n) b) base (n + 1) := by
  intro k hk
  rcases Nat.lt_succ_iff_lt_or_eq.1 hk with hlt | rfl
  · exact h.write _ b k hlt
  · rw [Memory.read_write_same]; rfl

/-! ## Counters and the received count -/

theorem bump_lt (cfg : Config.Params) (c : Nat) : bump cfg c < 2 ^ cfg.diagW :=
  Nat.mod_lt _ (Nat.two_pow_pos _)

/-- RXCNT does not wrap in an open receive (R40 item 3). -/
theorem rxcnt_succ_toNat {c l : BitVec 7} (h : c.toNat < l.toNat) : (c + 1).toNat = c.toNat + 1 := by
  bv_omega

/-! ## What the registers' invariant gives -/

/-- Every phase after the wait needs a stream (R40 item 6). -/
theorem RegInv.streaming_of_phase {s : State} (h : RegInv s) {p : Phase} (hp : s.tph = p) (h2 : 2 ≤ p.code.toNat) :
    s.link = .streaming :=
  h.loop_streaming (hp ▸ h2)

/-- In a stream the task may move to any phase but T_IDLE, to the clear with READY = 1. -/
theorem RegInv.setPhase {s : State} (h : RegInv s) {p : Phase} (hl : s.link = .streaming) (hp : p ≠ .tIdle)
    (hc : p = .dClr → s.ready = true) : RegInv { s with tph := p } :=
  { h with
    idle_iff := ⟨fun hpi => absurd hpi hp, fun hli => nomatch hl.symm.trans hli⟩
    loop_streaming := fun _ => hl
    clear_ready := hc }

/-- A move that neither opens nor closes a decode keeps the data invariant. -/
theorem DataInv.setPhase {s : State} (h : DataInv s) {p : Phase}
    (ho : decodeOpen { s with tph := p } = decodeOpen s) : DataInv { s with tph := p } :=
  { h with
    open_whole := fun hd => h.open_whole (ho ▸ hd)
    lock_step := ho ▸ h.lock_step }

theorem decodeOpen_of_tph {s : State} {p : Phase} (h : s.tph = p) :
    decodeOpen s = (p.reads || decide (p = .dFlip)) := by
  rw [← h]; rfl

/-- In an open decode every read has a value to return (R41, R189). -/
theorem BlockInv.allReadable {s : State} (h : BlockInv s) (ho : decodeOpen s = true) : AllReadable s := by
  refine ⟨by have := legal_toNat_le h.regs.ridx_legal; omega, fun i hi c hc => ?_⟩
  rcases List.mem_cons.1 hc with rfl | hc
  · exact h.data.open_whole ho i hi
  · obtain ⟨e, he, rfl⟩ := List.mem_map.1 hc
    exact h.data.shadow_some e (List.mem_filter.1 he).1

/-- The descriptor byte that a completion of the handshake reads has been written (R41). -/
theorem BlockInv.echo_written {s : State} (h : BlockInv s) (hp : s.rxcPend = true) (hl : s.link = .awaiting) :
    ∃ b, Memory.read s.desc 6 = some b :=
  Option.isSome_iff_exists.1 (h.data.desc_whole hp hl 6 (by decide))

/-- No part of the invariant speaks of the script. -/
theorem BlockInv.setScript {s : State} (h : BlockInv s) (sc : List Chunk) : BlockInv { s with script := sc } :=
  ⟨{ h.regs with }, { h.data with }, { h.mem with }, { h.counts with }⟩

/-- In a stream the task moves, with no decode opened or closed. -/
theorem BlockInv.setPhase {s : State} (h : BlockInv s) {p : Phase} (hl : s.link = .streaming) (hp : p ≠ .tIdle)
    (hc : p = .dClr → s.ready = true) (ho : decodeOpen { s with tph := p } = decodeOpen s) :
    BlockInv { s with tph := p } :=
  ⟨h.regs.setPhase hl hp hc, h.data.setPhase ho, { h.mem with }, { h.counts with }⟩

/-- No part of the invariant speaks of the published angle, DSTAT, the trace or the free values. -/
theorem BlockInv.setView {s : State} (h : BlockInv s) (q : BitVec 16) (v : Bool) (d : DecodeStatus) (tr : List Event)
    (n : Nat) : BlockInv { s with pubAngleQ6 := q, pubValid := v, dstat := d, trace := tr, freeIdx := n } :=
  ⟨{ h.regs with }, { h.data with }, { h.mem with }, { h.counts with }⟩

/-- An accepted frame counts within its width (R185, R32). -/
theorem BlockInv.countAccept {s : State} (h : BlockInv s) : BlockInv s.countAccept :=
  ⟨{ h.regs with }, { h.data with }, { h.mem with }, { h.counts with acc := bump_lt _ _ }⟩

/-- No part of the invariant speaks of the trace. -/
theorem BlockInv.setTrace {s : State} (h : BlockInv s) (tr : List Event) : BlockInv { s with trace := tr } :=
  ⟨{ h.regs with }, { h.data with }, { h.mem with }, { h.counts with }⟩

/-- Serving a notification releases what it said of the memories (R29, R41). -/
theorem BlockInv.clearPend {s : State} (h : BlockInv s) : BlockInv s.clearPend :=
  ⟨{ h.regs with armed_open := fun ha => ⟨rfl, (h.regs.armed_open ha).2⟩, pending_started := nofun },
    { h.data with desc_whole := nofun, pool_whole := nofun }, { h.mem with }, { h.counts with }⟩

/-- A drop counts within its width (R211, R32). -/
theorem BlockInv.raiseDrop {s : State} (h : BlockInv s) (d : Drop) : BlockInv (s.raiseDrop d) := by
  cases d with
  | hsMismatch =>
    exact ⟨{ h.regs with }, { h.data with }, { h.mem with }, { h.counts with hsbad := bump_lt _ _ }⟩
  | overrun =>
    exact ⟨{ h.regs with }, { h.data with }, { h.mem with }, { h.counts with ovr := bump_lt _ _ }⟩
  | syncFail =>
    exact ⟨{ h.regs with }, { h.data with }, { h.mem with }, { h.counts with sync := bump_lt _ _ }⟩
  | csumFail =>
    exact ⟨{ h.regs with }, { h.data with }, { h.mem with }, { h.counts with csum := bump_lt _ _ }⟩

/-- A receive of the kind that LINK names may be armed where no notification is pending (R121). -/
theorem BlockInv.arm {s : State} (h : BlockInv s) {space : Space} {base : BitVec 8} {len : BitVec 7}
    (hp : s.rxcPend = false)
    (hk : (s.link = .awaiting ∧ space = .desc ∧ base = 0 ∧ len = 7) ∨
      (s.link = .streaming ∧ space = .pool ∧ base = s.widx ∧ len = 84)) :
    BlockInv { s with rxa := true, rxsp := space, rxbase := base, rxlen := len, rxcnt := 0 } := by
  have hlen : 0 < len.toNat := by rcases hk with ⟨-, -, -, rfl⟩ | ⟨-, -, -, rfl⟩ <;> decide
  exact ⟨{ h.regs with armed_open := fun _ => ⟨hp, hlen⟩, armed_kind := fun _ => hk },
    { h.data with desc_landed := fun _ _ => Written.zero _ _, pool_landed := fun _ _ => Written.zero _ _ },
    { h.mem with }, { h.counts with }⟩

end Sys2Proof.Safety
end

section
/-! SUPPORT. Every single operation of XRX's own keeps the invariant (R40, R41, R60, R32). Each proof names only the parts
of the invariant that the operation touches; the others are those of the state before it. -/

namespace Sys2Proof.Safety

open Sys2Proof.Machine

/-! ## A received byte -/

/-- A byte stored in the pool keeps the invariant: what it overwrote under a decode had been written (R189). -/
theorem BlockInv.storePool {s : State} (h : BlockInv s) {a : Nat} (ha : a < 168) (b : Byte) :
    BlockInv { s with
      pool := Memory.write s.pool a b
      shadow := if s.tears a then (a, Memory.read s.pool a) :: s.shadow else s.shadow } where
  regs := { h.regs with }
  data := { h.data with
    pool_landed := fun hr hs => (h.data.pool_landed hr hs).write a b
    pool_whole := fun hp hl => (h.data.pool_whole hp hl).write a b
    ready_whole := fun hr => (h.data.ready_whole hr).write a b
    open_whole := fun ho => (h.data.open_whole ho).write a b
    shadow_some := by
      intro e he
      dsimp only at he
      split at he
      · rename_i ht
        obtain ⟨hph, hlo, hhi⟩ := (tears_iff s a).1 ht
        have ho : decodeOpen s = true := by rcases hph with hp | hp | hp <;> exact decodeOpen_of_tph hp
        rcases List.mem_cons.1 he with rfl | he
        · have hw := h.data.open_whole ho (a - s.ridx.toNat) (by omega)
          rwa [Nat.add_sub_cancel' hlo] at hw
        · exact h.data.shadow_some e he
      · exact h.data.shadow_some e he }
  mem := { h.mem with
    pool_canonical := Memory.wf_write h.mem.pool_canonical a b
    pool_inside := fun c hc => (Memory.mem_write hc).elim (fun hca => hca ▸ ha) (h.mem.pool_inside c) }
  counts := { h.counts with }

/-- A byte stored in DESC keeps the invariant. -/
theorem BlockInv.storeDesc {s : State} (h : BlockInv s) {a : Nat} (ha : a < 7) (b : Byte) :
    BlockInv { s with desc := Memory.write s.desc a b } where
  regs := { h.regs with }
  data := { h.data with
    desc_landed := fun hr hs => (h.data.desc_landed hr hs).write a b
    desc_whole := fun hp hl => (h.data.desc_whole hp hl).write a b }
  mem := { h.mem with
    desc_canonical := Memory.wf_write h.mem.desc_canonical a b
    desc_inside := fun c hc => (Memory.mem_write hc).elim (fun hca => hca ▸ ha) (h.mem.desc_inside c) }
  counts := { h.counts with }

/-- The count after a stored byte keeps the invariant: the byte it counts is written, and the last one completes a receive
of the kind that LINK names (R122). -/
theorem BlockInv.advance {s : State} (h : BlockInv s) (ha : s.rxa = true)
    (hd : s.rxsp = .desc → Written s.desc 0 (s.rxcnt.toNat + 1))
    (hp : s.rxsp = .pool → Written s.pool s.rxbase.toNat (s.rxcnt.toNat + 1)) : BlockInv (advanceReceive s) := by
  obtain ⟨hpend, hlt⟩ := h.regs.armed_open ha
  have hcnt := rxcnt_succ_toNat hlt
  have hkind := h.regs.armed_kind ha
  unfold advanceReceive
  split
  · rename_i hlast
    rw [hlast] at hcnt
    refine ⟨{ h.regs with armed_open := nofun, armed_kind := nofun, pending_started := ?_ },
      { h.data with desc_landed := nofun, pool_landed := nofun, desc_whole := ?_, pool_whole := ?_ },
      { h.mem with }, { h.counts with }⟩
    · rcases hkind with ⟨hl, -⟩ | ⟨hl, -⟩ <;> exact fun _ hi => by simp [hl] at hi
    · intro _ hl
      rcases hkind with ⟨-, hsp, -, hlen⟩ | ⟨hl', -⟩
      · have hw := hd hsp
        rwa [← hcnt, hlen] at hw
      · exact absurd (hl.symm.trans hl') (by decide)
    · intro _ hl
      rcases hkind with ⟨hl', -⟩ | ⟨-, hsp, hbase, hlen⟩
      · exact absurd (hl.symm.trans hl') (by decide)
      · have hw := hp hsp
        rwa [← hcnt, hlen, hbase] at hw
  · rename_i hmore
    have hne : (s.rxcnt + 1).toNat ≠ s.rxlen.toNat := fun e => hmore (BitVec.eq_of_toNat_eq e)
    refine ⟨{ h.regs with armed_open := fun _ => ⟨hpend, ?_⟩ },
      { h.data with desc_landed := fun _ hs => ?_, pool_landed := fun _ hs => ?_ }, { h.mem with }, { h.counts with }⟩
    · simp only; omega
    · simpa only [hcnt] using hd hs
    · simpa only [hcnt] using hp hs

/-- The next byte of an open receive falls inside its space (R72). -/
theorem BlockInv.adapterOffset_lt {s : State} (h : BlockInv s) (ha : s.rxa = true) :
    (s.rxsp = .desc → s.rxcnt.toNat < 7) ∧ (s.rxsp = .pool → s.rxbase.toNat + s.rxcnt.toNat < 168) := by
  have hlt := (h.regs.armed_open ha).2
  have hw := legal_toNat_le h.regs.widx_legal
  rcases h.regs.armed_kind ha with ⟨-, hsp, -, hlen⟩ | ⟨-, hsp, hbase, hlen⟩
  · exact ⟨fun _ => by simpa [hlen] using hlt, fun hs => absurd (hs.symm.trans hsp) (by decide)⟩
  · refine ⟨fun hs => absurd (hs.symm.trans hsp) (by decide), fun _ => ?_⟩
    have h84 : s.rxlen.toNat = 84 := by rw [hlen]; rfl
    rw [hbase]
    omega

/-- A byte can always arrive in a state of the invariant, and leads to one (R122, R124). -/
theorem execTaRxb_completes {s : State} (h : BlockInv s) (b : Byte) :
    ∃ t, execTaRxb b s = .next t ∧ BlockInv t := by
  have hlog : BlockInv (s.log (.taRxb b)) := h.setTrace _
  cases ha : s.rxa with
  | false => exact ⟨_, landByte_unarmed (s := s.log (.taRxb b)) ha b, hlog.setTrace _⟩
  | true =>
    obtain ⟨hdesc, hpool⟩ := h.adapterOffset_lt ha
    cases hs : s.rxsp with
    | desc =>
      refine ⟨_, landByte_desc (s := s.log (.taRxb b)) b ha hs (hdesc hs),
        (hlog.storeDesc (hdesc hs) b).advance ha (fun _ => ?_) fun hs' => nomatch hs.symm.trans hs'⟩
      simpa using (h.data.desc_landed ha hs).extend b
    | pool =>
      exact ⟨_, landByte_pool (s := s.log (.taRxb b)) b ha hs (hpool hs),
        (hlog.storePool (hpool hs) b).advance ha (fun hs' => nomatch hs.symm.trans hs') fun _ =>
          (h.data.pool_landed ha hs).extend b⟩

/-! ## Reset -/

/-- The values that R39 states for reset, in the registers and memories that the invariant speaks of. -/
structure ResetValues (s : State) : Prop where
  link    : s.link = .idle
  ready   : s.ready = false
  widx    : s.widx = 0
  ridx    : s.ridx = 0
  tph     : s.tph = .tIdle
  rxa     : s.rxa = false
  rxcPend : s.rxcPend = false
  pool    : s.pool = []
  desc    : s.desc = []
  shadow  : s.shadow = []
  acc     : s.cntAcc = 0
  sync    : s.cntSync = 0
  csum    : s.cntCsum = 0
  ovr     : s.cntOvr = 0
  hsbad   : s.cntHsbad = 0

/-- Nothing is armed, pending or handed over, no decode is open, and both offsets are 0. -/
theorem ResetValues.blockInv {s : State} (h : ResetValues s) : BlockInv s where
  regs :=
    { widx_legal := .inl h.widx
      ridx_legal := .inl h.ridx
      armed_open := fun ha => nomatch h.rxa.symm.trans ha
      armed_kind := fun ha => nomatch h.rxa.symm.trans ha
      idle_iff := iff_of_true h.tph h.link
      loop_streaming := fun h2 => by simp [h.tph, Phase.code] at h2
      ready_streaming := fun hr => nomatch h.ready.symm.trans hr
      pending_started := fun hp => nomatch h.rxcPend.symm.trans hp
      clear_ready := fun hc => nomatch h.tph.symm.trans hc }
  data :=
    { desc_landed := fun ha => nomatch h.rxa.symm.trans ha
      desc_whole := fun hp => nomatch h.rxcPend.symm.trans hp
      pool_landed := fun ha => nomatch h.rxa.symm.trans ha
      pool_whole := fun hp => nomatch h.rxcPend.symm.trans hp
      ready_whole := fun hr => nomatch h.ready.symm.trans hr
      open_whole := fun ho => nomatch (decodeOpen_of_tph h.tph).symm.trans ho
      shadow_some := fun e he => by simp [h.shadow] at he
      lock_step := iff_of_true (h.widx.trans h.ridx.symm) (h.ready.trans (decodeOpen_of_tph h.tph).symm) }
  mem :=
    { pool_canonical := h.pool ▸ List.Pairwise.nil
      desc_canonical := h.desc ▸ List.Pairwise.nil
      pool_inside := fun c hc => by simp [h.pool] at hc
      desc_inside := fun c hc => by simp [h.desc] at hc }
  counts :=
    { acc := h.acc ▸ Nat.two_pow_pos _
      sync := h.sync ▸ Nat.two_pow_pos _
      csum := h.csum ▸ Nat.two_pow_pos _
      ovr := h.ovr ▸ Nat.two_pow_pos _
      hsbad := h.hsbad ▸ Nat.two_pow_pos _ }

/-- RESET leads to the invariant from every state (R240). -/
theorem execReset_keeps {s t : State} (hx : execReset s = .next t) : BlockInv t := by
  cases hx
  exact ResetValues.blockInv (by constructor <;> rfl)

/-! ## The link -/

theorem execStart_keeps {s t : State} (h : BlockInv s) (hx : execStart s = .next t) : BlockInv t := by
  obtain ⟨hp, -, rfl⟩ := execStart_next hx
  have hidle : s.link = .idle := h.regs.idle_iff.1 hp
  have hpend : s.rxcPend = false := by
    by_contra hne
    exact h.regs.pending_started (Bool.eq_true_of_not_eq_false hne) hidle
  have hready : s.ready ≠ true := fun hr => nomatch hidle.symm.trans (h.regs.ready_streaming hr)
  have hua : s.rxa ≠ true := fun ha => by
    rcases h.regs.armed_kind ha with ⟨hl, -⟩ | ⟨hl, -⟩ <;> cases hidle.symm.trans hl
  have hwait : BlockInv { s with link := .awaiting, tph := .tWait } :=
    ⟨{ h.regs with
        armed_kind := fun ha => absurd ha hua
        idle_iff := ⟨nofun, nofun⟩
        loop_streaming := fun h2 => by simp [Phase.code] at h2
        ready_streaming := fun hr => absurd hr hready
        pending_started := fun _ => nofun
        clear_ready := nofun },
      { h.data.setPhase (p := .tWait) (decodeOpen_of_tph hp).symm with
        desc_whole := fun hr => nomatch hpend.symm.trans hr
        pool_whole := fun _ => nofun },
      { h.mem with }, { h.counts with }⟩
  exact (hwait.arm hpend (.inl ⟨rfl, rfl, rfl, rfl⟩)).setTrace _

theorem execWaits_keeps {s t : State} (h : BlockInv s) (hx : execWaits s = .next t) : BlockInv t := by
  obtain ⟨hp, rfl⟩ := execWaits_next hx
  split
  · rename_i hl
    exact (h.setPhase (p := .dPoll) hl nofun nofun (decodeOpen_of_tph hp).symm).setTrace _
  · exact hp ▸ h.setTrace _

theorem execRxcIdle_keeps {s t : State} (h : BlockInv s) (hx : execRxcIdle s = .next t) : BlockInv t := by
  obtain ⟨-, -, rfl⟩ := execRxcIdle_next hx
  exact h.clearPend.setTrace _

theorem execRxcHsok_keeps {s t : State} (h : BlockInv s) (hx : execRxcHsok s = .next t) : BlockInv t := by
  obtain ⟨-, hl, -, ha, rfl⟩ := execRxcHsok_next hx
  have hs : s.tph ≠ .tIdle := fun hi => nomatch hl.symm.trans (h.regs.idle_iff.1 hi)
  have hstream : BlockInv { s.clearPend with link := .streaming } :=
    ⟨{ h.clearPend.regs with
        armed_kind := fun ha' => nomatch ha.symm.trans ha'
        idle_iff := ⟨fun hi => absurd hi hs, nofun⟩
        loop_streaming := fun _ => rfl
        ready_streaming := fun _ => rfl
        pending_started := nofun },
      { h.clearPend.data with desc_whole := nofun, pool_whole := nofun }, { h.mem with }, { h.counts with }⟩
  exact (hstream.arm rfl (.inr ⟨rfl, rfl, rfl, rfl⟩)).setTrace _

theorem execRxcHsbad_keeps {s t : State} (h : BlockInv s) (hx : execRxcHsbad s = .next t) : BlockInv t := by
  obtain ⟨-, -, b, -, -, rfl⟩ := execRxcHsbad_next hx
  exact (h.clearPend.raiseDrop (.hsMismatch b)).setTrace _

/-! ## The reception pipeline -/

/-- The buffer handed over is the one that was whole, and the write side takes the other offset (R161, R163). -/
theorem execRxcFrame_keeps {s t : State} (h : BlockInv s) (hx : execRxcFrame s = .next t) : BlockInv t := by
  obtain ⟨hp, hl, hr, ha, rfl⟩ := execRxcFrame_next hx
  have handed : BlockInv { s.clearPend.setReady with widx := flipOffset s.widx } :=
    ⟨{ h.clearPend.regs with
        widx_legal := flipOffset_legal h.regs.widx_legal
        armed_kind := fun ha' => nomatch ha.symm.trans ha'
        ready_streaming := fun _ => hl
        clear_ready := fun _ => rfl },
      { h.clearPend.data with
        pool_whole := nofun
        ready_whole := fun _ => (flipOffset_flipOffset s.widx).symm ▸ h.data.pool_whole hp hl
        lock_step := by
          have hls := h.data.lock_step
          rw [hr] at hls
          refine (flipOffset_eq_iff_ne h.regs.widx_legal h.regs.ridx_legal).trans ((not_congr hls).trans ?_)
          change ¬ false = decodeOpen s ↔ true = decodeOpen s
          cases decodeOpen s <;> simp },
      { h.mem with }, { h.counts with }⟩
  exact (handed.arm rfl (.inr ⟨hl, rfl, rfl, rfl⟩)).setTrace _

theorem execRxcOvr_keeps {s t : State} (h : BlockInv s) (hx : execRxcOvr s = .next t) : BlockInv t := by
  obtain ⟨-, hl, -, ⟨-, rfl⟩ | ⟨-, -, rfl⟩⟩ := execRxcOvr_next hx
  · exact (h.clearPend.raiseDrop (.overrun s.widx)).setTrace _
  · exact ((h.clearPend.raiseDrop (.overrun s.widx)).arm rfl (.inr ⟨hl, rfl, rfl, rfl⟩)).setTrace _

theorem execRxc_keeps {s t : State} (h : BlockInv s) (hx : execRxc s = .next t) : BlockInv t := by
  rcases execRxc_next hx with hx | hx | hx | hx | hx
  · exact execRxcIdle_keeps h hx
  · exact execRxcHsok_keeps h hx
  · exact execRxcHsbad_keeps h hx
  · exact execRxcFrame_keeps h hx
  · exact execRxcOvr_keeps h hx

/-! ## The frame decoder -/

theorem execDpoll_keeps {s t : State} (h : BlockInv s) (hx : execDpoll s = .next t) : BlockInv t := by
  obtain ⟨hp, rfl⟩ := execDpoll_next hx
  have hl := h.regs.streaming_of_phase hp (by decide)
  split
  · rename_i hr
    exact (h.setPhase (p := .dClr) hl nofun (fun _ => hr) (decodeOpen_of_tph hp).symm).setTrace _
  · exact hp ▸ h.setTrace _

/-- The decode opens on the buffer that was handed over: with READY = 1 and no decode open the two offsets differ
(R163, R182). -/
theorem execDclr_keeps {s t : State} (h : BlockInv s) (hx : execDclr s = .next t) : BlockInv t := by
  obtain ⟨hp, rfl⟩ := execDclr_next hx
  have hl := h.regs.streaming_of_phase hp (by decide)
  have hr := h.regs.clear_ready hp
  have hne : s.widx ≠ s.ridx := by
    rw [Ne, h.data.lock_step, hr, decodeOpen_of_tph hp]
    decide
  have hflip : flipOffset s.widx = s.ridx := (flipOffset_eq_iff_ne h.regs.widx_legal h.regs.ridx_legal).2 hne
  exact ⟨{ h.regs.setPhase (p := .dSync) hl nofun nofun with ready_streaming := nofun, clear_ready := nofun },
    { h.data with
      ready_whole := nofun
      open_whole := fun _ => hflip ▸ h.data.ready_whole hr
      shadow_some := nofun
      lock_step := iff_of_false hne nofun },
    { h.mem with }, { h.counts with }⟩

theorem execDsync_keeps {s t : State} (h : BlockInv s) (hx : execDsync s = .next t) : BlockInv t := by
  obtain ⟨hp, b0, b1, n, -, -, hcase⟩ := execDsync_next hx
  have hl := h.regs.streaming_of_phase hp (by decide)
  rcases hcase with ⟨-, rfl⟩ | ⟨-, rfl⟩
  · exact (h.setPhase (p := .dCsum) hl nofun nofun (decodeOpen_of_tph hp).symm).setView _ _ _ _ _
  · exact ((h.setPhase (p := .dFlip) hl nofun nofun (decodeOpen_of_tph hp).symm).raiseDrop
      (.syncFail (syncOf b0 b1))).setView _ _ _ _ _

theorem execDcsum_keeps {s t : State} (h : BlockInv s) (hx : execDcsum s = .next t) : BlockInv t := by
  obtain ⟨hp, acc, ck, n, hcase⟩ := execDcsum_next hx
  have hl := h.regs.streaming_of_phase hp (by decide)
  rcases hcase with ⟨-, rfl⟩ | ⟨-, rfl⟩
  · exact (h.setPhase (p := .dAng) hl nofun nofun (decodeOpen_of_tph hp).symm).setView _ _ _ _ _
  · exact ((h.setPhase (p := .dFlip) hl nofun nofun (decodeOpen_of_tph hp).symm).raiseDrop
      (.csumFail acc ck)).setView _ _ _ _ _

theorem execDang_keeps {s t : State} (h : BlockInv s) (hx : execDang s = .next t) : BlockInv t := by
  obtain ⟨hp, b3, b2, n, -, -, rfl⟩ := execDang_next hx
  have hl := h.regs.streaming_of_phase hp (by decide)
  exact (h.setPhase (p := .dFlip) hl nofun nofun (decodeOpen_of_tph hp).symm).countAccept.setView _ _ _ _ _

/-- The decode closes and the read side takes the other offset, so the offsets agree exactly when nothing is handed over
(R163, R187). -/
theorem execDflip_keeps {s t : State} (h : BlockInv s) (hx : execDflip s = .next t) : BlockInv t := by
  obtain ⟨hp, rfl⟩ := execDflip_next hx
  have hl := h.regs.streaming_of_phase hp (by decide)
  refine ⟨{ h.regs.setPhase (p := .dPoll) hl nofun nofun with ridx_legal := flipOffset_legal h.regs.ridx_legal },
    { h.data with open_whole := nofun, shadow_some := nofun, lock_step := ?_ }, { h.mem with }, { h.counts with }⟩
  have hls := h.data.lock_step
  rw [decodeOpen_of_tph hp] at hls
  refine eq_comm.trans ((flipOffset_eq_iff_ne h.regs.ridx_legal h.regs.widx_legal).trans
    ((ne_comm.trans (not_congr hls)).trans ?_))
  change ¬ s.ready = true ↔ s.ready = false
  simp

end Sys2Proof.Safety
end

section
/-! SUPPORT. From the invariant no operation faults (R41, R72), and every composition of XRX's own operations keeps both
properties: the records, the instructions and the step. -/

namespace Sys2Proof.Safety

open Sys2Proof.Machine

/-! ## No fault -/

/-- The result is a next state or a refusal. -/
def NeverFaults (r : Result) : Prop := ∀ e, r ≠ .fault e

theorem neverFaults_next (s : State) : NeverFaults (.next s) := nofun

theorem neverFaults_refused (e : Refusal) : NeverFaults (.refused e) := nofun

theorem neverFaults_of_completes {r : Result} (h : ∃ t, r = .next t) : NeverFaults r := by
  obtain ⟨t, rfl⟩ := h
  exact neverFaults_next t

theorem NeverFaults.andThen {r : Result} {f : State → Result} (hr : NeverFaults r)
    (hf : ∀ u, r = .next u → NeverFaults (f u)) : NeverFaults (andThen r f) := by
  cases r with
  | next u => exact hf u rfl
  | fault e => exact absurd rfl (hr e)
  | refused e => exact neverFaults_refused e

/-- An operation whose guard fails is refused, not faulted (log entry 14). -/
theorem neverFaults_guard {c : Prop} [Decidable c] {r : Result} {e : Refusal} (h : c → NeverFaults r) :
    NeverFaults (if c then r else .refused e) := by
  split
  · exact h ‹c›
  · exact neverFaults_refused e

theorem armReceive_neverFaults (space : Space) (base : BitVec 8) (len : BitVec 7) (s : State) :
    NeverFaults (armReceive space base len s) := by
  unfold armReceive
  split
  · exact neverFaults_refused _
  · exact neverFaults_next _

/-! ## The decoder's reads complete -/

/-- A read inside a readable buffer goes on. -/
theorem withFrameByte_completes {s : State} (hr : AllReadable s) {i : Nat} (hi : i < 84) {k : Byte → State → Result}
    (hk : ∀ b n, ∃ t, k b { s with freeIdx := n } = .next t) : ∃ t, withFrameByte i s k = .next t := by
  obtain ⟨hin, hsome⟩ := hr
  obtain ⟨b, n, -, h⟩ := withFrameByte_candidate k (by omega) (hsome i hi)
  exact h ▸ hk b n

/-- The running XOR inside a readable buffer goes on. -/
theorem withXor_completes {s : State} (hr : AllReadable s) {n i : Nat} (hi : i + n ≤ 84) (acc : Byte)
    {k : Byte → State → Result} (hk : ∀ b m, ∃ t, k b { s with freeIdx := m } = .next t) :
    ∃ t, withXor n i acc s k = .next t := by
  obtain ⟨hin, hsome⟩ := hr
  obtain ⟨g, m, -, h⟩ := withXor_candidate k n i acc s fun j _ hj => ⟨by omega, hsome j (by omega)⟩
  exact h ▸ hk _ m

theorem execDsync_completes {s : State} (hr : AllReadable s) (hp : s.tph = .dSync) : ∃ t, execDsync s = .next t := by
  rw [execDsync, if_pos hp]
  refine withFrameByte_completes (by exact hr) (by decide) fun b0 n0 => ?_
  refine withFrameByte_completes (by exact hr) (by decide) fun b1 n1 => ?_
  split <;> exact ⟨_, rfl⟩

theorem execDcsum_completes {s : State} (hr : AllReadable s) (hp : s.tph = .dCsum) : ∃ t, execDcsum s = .next t := by
  rw [execDcsum, if_pos hp]
  refine withFrameByte_completes (by exact hr) (by decide) fun b0 n0 => ?_
  refine withFrameByte_completes (by exact hr) (by decide) fun b1 n1 => ?_
  refine withXor_completes (by exact hr) (by decide) 0x00 fun acc n2 => ?_
  split <;> exact ⟨_, rfl⟩

theorem execDang_completes {s : State} (hr : AllReadable s) (hp : s.tph = .dAng) : ∃ t, execDang s = .next t := by
  rw [execDang, if_pos hp]
  refine withFrameByte_completes (by exact hr) (by decide) fun b3 n3 => ?_
  exact withFrameByte_completes (by exact hr) (by decide) fun b2 n2 => ⟨_, rfl⟩

/-! ## Safe results -/

/-- The result is no fault, and a next state meets the invariant. -/
structure Safe (r : Result) : Prop where
  neverFaults : NeverFaults r
  keeps : ∀ t, r = .next t → BlockInv t

theorem safe_next {s : State} (h : BlockInv s) : Safe (.next s) where
  neverFaults := neverFaults_next s
  keeps := fun t ht => by cases ht; exact h

theorem safe_refused (e : Refusal) : Safe (.refused e) := ⟨neverFaults_refused e, fun _ ht => by cases ht⟩

theorem Safe.andThen {r : Result} {f : State → Result} (hr : Safe r) (hf : ∀ u, BlockInv u → Safe (f u)) :
    Safe (andThen r f) where
  neverFaults := hr.neverFaults.andThen fun u hu => (hf u (hr.keeps u hu)).neverFaults
  keeps := fun t ht => by
    obtain ⟨u, hu, ht⟩ := andThen_eq_next.1 ht
    exact (hf u (hr.keeps u hu)).keeps t ht

section Operations

variable {s : State} (h : BlockInv s)
include h

theorem execTaRxb_safe (b : Byte) : Safe (execTaRxb b s) := by
  obtain ⟨t, ht, hinv⟩ := execTaRxb_completes h b
  exact ht ▸ safe_next hinv

omit h in
theorem execReset_safe : Safe (execReset s) := ⟨neverFaults_next _, fun _ => execReset_keeps⟩

theorem execStart_safe : Safe (execStart s) :=
  ⟨neverFaults_guard fun _ => (armReceive_neverFaults _ _ _ _).andThen fun _ _ => neverFaults_next _,
    fun _ => execStart_keeps h⟩

theorem execWaits_safe : Safe (execWaits s) :=
  ⟨neverFaults_guard fun _ => by split <;> exact neverFaults_next _, fun _ => execWaits_keeps h⟩

theorem execDpoll_safe : Safe (execDpoll s) :=
  ⟨neverFaults_guard fun _ => by split <;> exact neverFaults_next _, fun _ => execDpoll_keeps h⟩

theorem execDclr_safe : Safe (execDclr s) :=
  ⟨neverFaults_guard fun _ => neverFaults_next _, fun _ => execDclr_keeps h⟩

theorem execDsync_safe : Safe (execDsync s) where
  neverFaults := by
    by_cases hp : s.tph = .dSync
    · exact neverFaults_of_completes (execDsync_completes (h.allReadable (decodeOpen_of_tph hp)) hp)
    · rw [execDsync, if_neg hp]; exact neverFaults_refused _
  keeps := fun _ => execDsync_keeps h

theorem execDcsum_safe : Safe (execDcsum s) where
  neverFaults := by
    by_cases hp : s.tph = .dCsum
    · exact neverFaults_of_completes (execDcsum_completes (h.allReadable (decodeOpen_of_tph hp)) hp)
    · rw [execDcsum, if_neg hp]; exact neverFaults_refused _
  keeps := fun _ => execDcsum_keeps h

theorem execDang_safe : Safe (execDang s) where
  neverFaults := by
    by_cases hp : s.tph = .dAng
    · exact neverFaults_of_completes (execDang_completes (h.allReadable (decodeOpen_of_tph hp)) hp)
    · rw [execDang, if_neg hp]; exact neverFaults_refused _
  keeps := fun _ => execDang_keeps h

theorem execDflip_safe : Safe (execDflip s) :=
  ⟨neverFaults_guard fun _ => neverFaults_next _, fun _ => execDflip_keeps h⟩

theorem execRxcIdle_safe : Safe (execRxcIdle s) :=
  ⟨neverFaults_guard fun _ => neverFaults_next _, fun _ => execRxcIdle_keeps h⟩

/-- The handshake reads a byte that its completion says was written. -/
theorem withEcho_neverFaults (hp : s.rxcPend = true) (hl : s.link = .awaiting) {k : Byte → Result}
    (hk : ∀ b, NeverFaults (k b)) : NeverFaults (withEcho s k) := by
  obtain ⟨b, hb⟩ := h.echo_written hp hl
  rw [withEcho_some hb]
  exact hk b

theorem execRxcHsok_safe : Safe (execRxcHsok s) :=
  ⟨neverFaults_guard fun hg => withEcho_neverFaults h hg.1 hg.2 fun _ =>
      neverFaults_guard fun _ => armReceive_neverFaults _ _ _ _,
    fun _ => execRxcHsok_keeps h⟩

theorem execRxcHsbad_safe : Safe (execRxcHsbad s) :=
  ⟨neverFaults_guard fun hg => withEcho_neverFaults h hg.1 hg.2 fun _ => by
      split
      · exact neverFaults_refused _
      · exact neverFaults_next _,
    fun _ => execRxcHsbad_keeps h⟩

theorem execRxcFrame_safe : Safe (execRxcFrame s) :=
  ⟨neverFaults_guard fun _ => armReceive_neverFaults _ _ _ _, fun _ => execRxcFrame_keeps h⟩

theorem execRxcOvr_safe : Safe (execRxcOvr s) :=
  ⟨neverFaults_guard fun _ => by
      split
      · exact neverFaults_next _
      · exact armReceive_neverFaults _ _ _ _,
    fun _ => execRxcOvr_keeps h⟩

theorem execRxc_safe : Safe (execRxc s) where
  keeps := fun _ => execRxc_keeps h
  neverFaults := neverFaults_guard fun hp => by
    split
    · exact (execRxcIdle_safe h).neverFaults
    · rename_i hl
      refine withEcho_neverFaults h hp hl fun echo => ?_
      split
      · exact (execRxcHsok_safe h).neverFaults
      · exact (execRxcHsbad_safe h).neverFaults
    · split
      · exact (execRxcOvr_safe h).neverFaults
      · exact (execRxcFrame_safe h).neverFaults

/-! ## Records -/

omit h in
theorem landAll_safe (bytes : List Byte) : ∀ {s : State}, BlockInv s → Safe (landAll bytes s) := by
  induction bytes with
  | nil => exact safe_next
  | cons b rest ih => exact fun h => (execTaRxb_safe h b).andThen fun _ => ih

theorem serveIfPending_safe : Safe (serveIfPending s) := by
  unfold serveIfPending
  split
  · exact execRxc_safe h
  · exact safe_next h

theorem whenPhase_safe {f : State → Result} (hf : Safe (f s)) (p : Phase) : Safe (whenPhase p f s) := by
  unfold whenPhase
  split
  · exact hf
  · exact safe_next h

theorem decodeOnce_safe : Safe (decodeOnce s) := by
  unfold decodeOnce
  split
  · refine (execDpoll_safe h).andThen fun t1 h1 => ?_
    refine (whenPhase_safe h1 (execDclr_safe h1) _).andThen fun t2 h2 => ?_
    refine (whenPhase_safe h2 (execDsync_safe h2) _).andThen fun t3 h3 => ?_
    refine (whenPhase_safe h3 (execDcsum_safe h3) _).andThen fun t4 h4 => ?_
    refine (whenPhase_safe h4 (execDang_safe h4) _).andThen fun t5 h5 => ?_
    exact whenPhase_safe h5 (execDflip_safe h5) _
  · exact safe_next h

theorem receiveDescriptor_safe (d : List Byte) : Safe (receiveDescriptor d s) :=
  (landAll_safe d h).andThen fun _ => serveIfPending_safe

theorem receiveFrame_safe (f : List Byte) : Safe (receiveFrame f s) :=
  (landAll_safe f h).andThen fun _ hu => (serveIfPending_safe hu).andThen fun _ => decodeOnce_safe

/-! ## Instructions and steps -/

/-- Every operation of XRX's own is safe from a state of the invariant. -/
theorem exec_safe {i : Instr} (ho : ownStep i = true) : Safe (exec i s) := by
  cases i with
  | reset => exact execReset_safe
  | start => exact execStart_safe h
  | waits => exact execWaits_safe h
  | dpoll => exact execDpoll_safe h
  | dclr => exact execDclr_safe h
  | dsync => exact execDsync_safe h
  | dcsum => exact execDcsum_safe h
  | dang => exact execDang_safe h
  | dcab => exact safe_refused _
  | dflip => exact execDflip_safe h
  | taArm => cases ho
  | taRxb b => exact execTaRxb_safe h b
  | taTx => cases ho
  | rxcIdle => exact execRxcIdle_safe h
  | rxcHsok => exact execRxcHsok_safe h
  | rxcHsbad => exact execRxcHsbad_safe h
  | rxcFrame => exact execRxcFrame_safe h
  | rxcOvr => exact execRxcOvr_safe h
  | rxc => exact execRxc_safe h
  | cmdXscan => cases ho
  | descOk d => exact receiveDescriptor_safe h d
  | descBad d => exact receiveDescriptor_safe h d
  | frameSynced f => exact receiveFrame_safe h f
  | frameUnsynced f => exact receiveFrame_safe h f

/-- The requests that are no steps of their own touch no memory, so they do not fault either. -/
theorem exec_neverFaults (i : Instr) : NeverFaults (exec i s) := by
  cases ho : ownStep i with
  | true => exact (exec_safe h ho).neverFaults
  | false =>
    cases i with
    | taArm space base len => exact armReceive_neverFaults space base len s
    | taTx => exact neverFaults_next _
    | cmdXscan => exact neverFaults_next _
    | _ => cases ho

end Operations

/-- What the state selects by itself is a step of XRX's own (R100). -/
theorem selected_ownStep {s : State} {i : Instr} (hi : s.selected = some i) : ownStep i = true := by
  unfold State.selected at hi
  split at hi
  · cases hi; rfl
  · split at hi <;> cases hi <;> rfl

/-- A step refuses, stutters, or runs one instruction with some script left, one of XRX's own where the schedule is. -/
theorem step_cases (s : State) :
    (∃ e, step s = .refused e) ∨ step s = .next s ∨
    ∃ i script, step s = exec i { s with script := script } ∧ (ScheduleOk s → ownStep i = true) := by
  unfold step
  split
  · rename_i fmt bytes rest hline
    split
    · rename_i i left hdec
      exact .inr (.inr ⟨i, _, rfl, fun hs => hs _ _ _ _ _ hline hdec⟩)
    · exact .inl ⟨_, rfl⟩
  · split
    · rename_i i hi
      exact .inr (.inr ⟨i, s.script, rfl, fun _ => selected_ownStep hi⟩)
    · exact .inr (.inl rfl)

end Sys2Proof.Safety
end

section
namespace Sys2Proof.Proofs

open Sys2Proof.Machine Sys2Proof.Safety

/-- Settles O46: the operation that a step runs is safe, by one lemma for each operation and composition for the
records. -/
theorem everyStepKeepsTheInvariant : Obligations.EveryStepKeepsTheInvariant := by
  intro s t h hs ht
  rcases step_cases s with ⟨e, he⟩ | hn | ⟨i, script, hi, hown⟩
  · cases he.symm.trans ht
  · cases hn.symm.trans ht
    exact h
  · exact (exec_safe (h.setScript script) (hown hs)).keeps t (hi.symm.trans ht)

/-- Settles O47: every read is of a written byte and every store is inside its space. -/
theorem nothingFaultsFromASafeState : Obligations.NothingFaultsFromASafeState := by
  intro s h
  refine ⟨exec_neverFaults h, ?_⟩
  rcases step_cases s with ⟨e, he⟩ | hn | ⟨i, script, hi, -⟩
  · exact he ▸ neverFaults_refused e
  · exact hn ▸ neverFaults_next s
  · exact hi ▸ exec_neverFaults (h.setScript script) i

end Sys2Proof.Proofs
end

section
/-! SUPPORT. What the service of a completion leaves unchanged (R20, R160), and the events of one operation (R102, R38). -/

namespace Sys2Proof.Safety

open Sys2Proof.Machine

/-! ## The frame of RXC -/

/-- Whichever variant runs, RXC writes only registers of the link, of the receive and of the write side, and their
counters. -/
theorem execRxc_frame {s t : State} (h : execRxc s = .next t) :
    t = { s with
      link := t.link, ready := t.ready, widx := t.widx, rxa := t.rxa, rxsp := t.rxsp, rxbase := t.rxbase
      rxlen := t.rxlen, rxcnt := t.rxcnt, rxcPend := false, cntOvr := t.cntOvr, cntHsbad := t.cntHsbad
      trace := t.trace } := by
  rcases execRxc_next h with h | h | h | h | h
  · obtain ⟨-, -, rfl⟩ := execRxcIdle_next h; rfl
  · obtain ⟨-, -, -, -, rfl⟩ := execRxcHsok_next h; rfl
  · obtain ⟨-, -, b, -, -, rfl⟩ := execRxcHsbad_next h; rfl
  · obtain ⟨-, -, -, -, rfl⟩ := execRxcFrame_next h; rfl
  · obtain ⟨-, -, -, ⟨-, rfl⟩ | ⟨-, -, rfl⟩⟩ := execRxcOvr_next h <;> rfl

/-! ## The publication pulse -/

theorem newEvents_of_append {s t : State} {new : List Event} (h : t.trace = s.trace ++ new) : newEvents s t = new := by
  rw [newEvents, h, List.drop_left]

/-- The pulse is the presence of a PUB event in the step. -/
theorem anglePub_iff (s t : State) : anglePub s t = true ↔ ∃ q, .pub q ∈ newEvents s t := by
  rw [anglePub, List.any_eq_true]
  constructor
  · rintro ⟨e, he, hp⟩
    cases e with
    | pub q => exact ⟨q, he⟩
    | _ => cases hp
  · rintro ⟨q, hq⟩
    exact ⟨_, hq, rfl⟩

/-- The step adds events to the trace, no publication among them. -/
def EmitsNoPub (s t : State) : Prop := ∃ new, t.trace = s.trace ++ new ∧ ∀ q, .pub q ∉ new

theorem EmitsNoPub.not_mem {s t : State} (h : EmitsNoPub s t) (q : BitVec 16) : .pub q ∉ newEvents s t := by
  obtain ⟨new, hnew, hno⟩ := h
  rw [newEvents_of_append hnew]
  exact hno q

/-- The five variants of RXC publish nothing. -/
theorem service_emitsNoPub {s t : State}
    (h : execRxcIdle s = .next t ∨ execRxcHsok s = .next t ∨ execRxcHsbad s = .next t ∨ execRxcFrame s = .next t ∨
      execRxcOvr s = .next t) : EmitsNoPub s t := by
  rcases h with h | h | h | h | h
  · obtain ⟨-, -, rfl⟩ := execRxcIdle_next h; exact ⟨_, rfl, by simp⟩
  · obtain ⟨-, -, -, -, rfl⟩ := execRxcHsok_next h; exact ⟨_, rfl, by simp⟩
  · obtain ⟨-, -, b, -, -, rfl⟩ := execRxcHsbad_next h; exact ⟨_, rfl, by simp⟩
  · obtain ⟨-, -, -, -, rfl⟩ := execRxcFrame_next h; exact ⟨_, rfl, by simp⟩
  · obtain ⟨-, -, -, ⟨-, rfl⟩ | ⟨-, -, rfl⟩⟩ := execRxcOvr_next h <;> exact ⟨_, rfl, by simp⟩

/-- No single operation but DANG publishes. -/
theorem exec_emitsNoPub {i : Instr} {s t : State} (hr : isRecord i = false) (hi : i ≠ .dang)
    (h : exec i s = .next t) : EmitsNoPub s t := by
  cases i with
  | reset => cases h; exact ⟨_, rfl, by simp⟩
  | start => obtain ⟨-, -, rfl⟩ := execStart_next h; exact ⟨_, rfl, by simp⟩
  | waits => obtain ⟨-, rfl⟩ := execWaits_next h; exact ⟨_, rfl, by simp⟩
  | dpoll => obtain ⟨-, rfl⟩ := execDpoll_next h; exact ⟨_, rfl, by simp⟩
  | dclr => obtain ⟨-, rfl⟩ := execDclr_next h; exact ⟨_, rfl, by simp⟩
  | dsync =>
    obtain ⟨-, b0, b1, n, -, -, ⟨-, rfl⟩ | ⟨-, rfl⟩⟩ := execDsync_next h <;> exact ⟨_, rfl, by simp⟩
  | dcsum => obtain ⟨-, acc, ck, n, ⟨-, rfl⟩ | ⟨-, rfl⟩⟩ := execDcsum_next h <;> exact ⟨_, rfl, by simp⟩
  | dang => exact absurd rfl hi
  | dcab => cases h
  | dflip => obtain ⟨-, rfl⟩ := execDflip_next h; exact ⟨_, rfl, by simp⟩
  | taArm => obtain ⟨-, rfl⟩ := execTaArm_next h; exact ⟨_, rfl, by simp⟩
  | taRxb b =>
    obtain ⟨-, rfl⟩ | ⟨-, -, -, rfl⟩ | ⟨-, -, -, rfl⟩ := execTaRxb_next h <;> exact ⟨_, rfl, by simp⟩
  | taTx => cases h; exact ⟨_, rfl, by simp⟩
  | rxcIdle => exact service_emitsNoPub (.inl h)
  | rxcHsok => exact service_emitsNoPub (.inr (.inl h))
  | rxcHsbad => exact service_emitsNoPub (.inr (.inr (.inl h)))
  | rxcFrame => exact service_emitsNoPub (.inr (.inr (.inr (.inl h))))
  | rxcOvr => exact service_emitsNoPub (.inr (.inr (.inr (.inr h))))
  | rxc => exact service_emitsNoPub (execRxc_next h)
  | cmdXscan => cases h; exact ⟨_, rfl, by simp⟩
  | descOk | descBad | frameSynced | frameUnsynced => cases hr

/-! ## The views of the published angle -/

/-- A word is its high part times a power of two, and its low part. -/
theorem toNat_eq_high_low (q : BitVec 16) {n m : Nat} (h : n + m = 16) :
    q.toNat = 2 ^ n * (q.extractLsb' n m).toNat + (q.extractLsb' 0 n).toNat := by
  have hq : q.toNat >>> n < 2 ^ m := by
    rw [Nat.shiftRight_eq_div_pow, Nat.div_lt_iff_lt_mul (Nat.two_pow_pos n), ← Nat.pow_add, Nat.add_comm m n, h]
    exact q.isLt
  rw [BitVec.extractLsb'_toNat, BitVec.extractLsb'_toNat, Nat.mod_eq_of_lt hq, Nat.shiftRight_eq_div_pow,
    Nat.shiftRight_zero, Nat.div_add_mod]

end Sys2Proof.Safety
end

section
namespace Sys2Proof.Proofs

open Sys2Proof.Machine Sys2Proof.Safety

/-- Settles O52: each operation's own lemma gives the whole next state, in which every register off its row is as it
was. -/
theorem registersAreWrittenOnlyByTheirOperations : Obligations.RegistersAreWrittenOnlyByTheirOperations := by
  intro i s t hrec hreset h
  cases i with
  | reset => exact absurd rfl hreset
  | start => obtain ⟨-, -, rfl⟩ := execStart_next h; simp
  | waits => obtain ⟨-, rfl⟩ := execWaits_next h; simp
  | dpoll => obtain ⟨-, rfl⟩ := execDpoll_next h; simp
  | dclr => obtain ⟨-, rfl⟩ := execDclr_next h; simp
  | dsync => obtain ⟨-, b0, b1, n, -, -, ⟨-, rfl⟩ | ⟨-, rfl⟩⟩ := execDsync_next h <;> simp
  | dcsum => obtain ⟨-, acc, ck, n, ⟨-, rfl⟩ | ⟨-, rfl⟩⟩ := execDcsum_next h <;> simp
  | dang => obtain ⟨-, b3, b2, n, -, -, rfl⟩ := execDang_next h; simp
  | dcab => cases h
  | dflip => obtain ⟨-, rfl⟩ := execDflip_next h; simp
  | taArm => obtain ⟨-, rfl⟩ := execTaArm_next h; simp
  | taRxb b => obtain ⟨-, rfl⟩ | ⟨-, -, -, rfl⟩ | ⟨-, -, -, rfl⟩ := execTaRxb_next h <;> simp
  | taTx => cases h; simp
  | rxcIdle => obtain ⟨-, -, rfl⟩ := execRxcIdle_next h; simp
  | rxcHsok => obtain ⟨-, -, -, -, rfl⟩ := execRxcHsok_next h; simp
  | rxcHsbad => obtain ⟨-, -, b, -, -, rfl⟩ := execRxcHsbad_next h; simp
  | rxcFrame => obtain ⟨-, -, -, -, rfl⟩ := execRxcFrame_next h; simp
  | rxcOvr => obtain ⟨-, -, -, ⟨-, rfl⟩ | ⟨-, -, rfl⟩⟩ := execRxcOvr_next h <;> simp
  | rxc => rw [execRxc_frame h]; simp
  | cmdXscan => cases h; simp
  | descOk | descBad | frameSynced | frameUnsynced => cases hrec

/-- Settles O59: DANG's step is the one whose events hold a PUB, and its angle is the register's. -/
theorem anglePulseMarksDang : Obligations.AnglePulseMarksDang := by
  intro i s t hrec h
  by_cases hi : i = .dang
  · subst hi
    obtain ⟨-, b3, b2, n, -, -, ht⟩ := execDang_next h
    have hnew : newEvents s t = [.line .dang, .pub (angleOf b3 b2)] := newEvents_of_append (ht ▸ rfl)
    have hangle : t.outputs.angleQ6 = angleOf b3 b2 := ht ▸ rfl
    have hpulse : anglePub s t = true := (anglePub_iff s t).2 ⟨angleOf b3 b2, by simp [hnew]⟩
    refine ⟨iff_of_true hpulse rfl, fun _ => ⟨ht ▸ rfl, ht ▸ rfl, ?_⟩, ?_⟩
    · simp [hnew, hangle]
    · intro q hq
      simpa [hnew, hangle, eq_comm] using hq
  · have hno := (exec_emitsNoPub hrec hi h).not_mem
    have hpulse : ¬ anglePub s t = true := fun hp => by
      obtain ⟨q, hq⟩ := (anglePub_iff s t).1 hp
      exact hno q hq
    exact ⟨iff_of_false hpulse hi, fun hp => absurd hp hpulse, fun q hq => absurd hq (hno q)⟩

/-- Settles O45: R39's values meet the invariant whatever else a state holds, and the counts of R163 start at 0. -/
theorem resetStateIsSafe : Obligations.ResetStateIsSafe := by
  refine ⟨ResetValues.blockInv (by constructor <;> rfl), by constructor <;> decide, ?_⟩
  decide

/-- Settles O58: the views split the word at bit 15 and at bit 6. -/
theorem angleViews : Obligations.AngleViews := by
  intro s
  have h15 := toNat_eq_high_low s.pubAngleQ6 (n := 15) (m := 1) rfl
  have h6 := toNat_eq_high_low s.pubAngleQ6 (n := 6) (m := 10) rfl
  refine ⟨h15, h6, ?_, fun hv => by simp [State.publishedAngle, hv], fun hv => by simp [State.publishedAngle, hv]⟩
  rw [degrees, h6, State.angleDegInt, State.angleDegFrac]
  push_cast
  ring

end Sys2Proof.Proofs
end

section
namespace Sys2Proof.Machine

/-! ## A store outside its space -/

theorem writePool_outside {a : Nat} (h : spaceLen .pool ≤ a) (b : Byte) (s : State) :
    writePool a b s = .fault (.badOffset .pool a) :=
  if_neg (Nat.not_lt.2 h)

theorem writeDesc_outside {a : Nat} (h : spaceLen .desc ≤ a) (b : Byte) (s : State) :
    writeDesc a b s = .fault (.badOffset .desc a) :=
  if_neg (Nat.not_lt.2 h)

/-- An armed byte whose offset lies outside its space stops with the store's own fault, in either space. -/
theorem landByte_outside {s : State} (b : Byte) (h : s.rxa = true) (ha : spaceLen s.rxsp ≤ adapterOffset s) :
    landByte b s = .fault (.badOffset s.rxsp (adapterOffset s)) := by
  cases hs : s.rxsp with
  | pool =>
    have hstore := writePool_outside (hs ▸ ha) b s
    simp [landByte, h, hs, hstore]
  | desc =>
    have hstore := writeDesc_outside (hs ▸ ha) b s
    simp [landByte, h, hs, hstore]

end Sys2Proof.Machine
end

section
namespace Sys2Proof.Proofs

open Sys2Proof.Machine

/-- Settles O13: the log of the line moves no offset, so the byte meets the same bound after it. -/
theorem storeOutsideItsSpaceFaults : Obligations.StoreOutsideItsSpaceFaults := by
  intro s b harmed hout
  exact landByte_outside (s := s.log (.taRxb b)) b harmed hout

end Sys2Proof.Proofs
end

section
/-! SUPPORT. The two directions of the encoding (30_encoding.md R99, R100, R102): what a record of its format's length
decodes to, and what the bytes of a decoded operation are. -/

namespace Sys2Proof

/-! ## Records -/

theorem wf_descOk_iff (d : List Byte) : (Instr.descOk d).wf = true ↔ d.length = 7 ∧ descEchoOk d = true := by
  simp [Instr.wf, descLengthOk]

theorem wf_descBad_iff (d : List Byte) : (Instr.descBad d).wf = true ↔ d.length = 7 ∧ descEchoOk d = false := by
  simp [Instr.wf, descLengthOk]

theorem wf_frameSynced_iff (f : List Byte) : (Instr.frameSynced f).wf = true ↔ f.length = 84 ∧ frameSyncOk f = true := by
  simp [Instr.wf, frameLengthOk]

theorem wf_frameUnsynced_iff (f : List Byte) :
    (Instr.frameUnsynced f).wf = true ↔ f.length = 84 ∧ frameSyncOk f = false := by
  simp [Instr.wf, frameLengthOk]

/-- What a record decodes to is well-formed, of the record's format, and encoded by the record. -/
theorem decodeRecord_sound {fmt : Format} {bytes left : List Byte} {i : Instr} (hf : fmt ≠ .evt)
    (h : decodeRecord fmt bytes = .ok (i, left)) : i.wf = true ∧ i.format = fmt ∧ bytes = encode i ++ left := by
  obtain ⟨r, cls, rfl, hl, hc, rfl⟩ := decodeRecord_eq_ok h
  cases fmt with
  | evt => exact absurd rfl hf
  | c9 =>
    rw [classify_c9 hl] at hc
    split at hc
    · rename_i hr
      cases hc
      exact ⟨rfl, rfl, hr ▸ rfl⟩
    · cases hc
  | d7 =>
    rw [classify_d7 hl] at hc
    split at hc
    · rename_i he
      cases hc
      exact ⟨(wf_descOk_iff r).2 ⟨hl, he⟩, rfl, rfl⟩
    · rename_i he
      cases hc
      exact ⟨(wf_descBad_iff r).2 ⟨hl, Bool.eq_false_of_not_eq_true he⟩, rfl, rfl⟩
  | f84 =>
    rw [classify_f84 hl] at hc
    split at hc
    · rename_i hs
      cases hc
      exact ⟨(wf_frameSynced_iff r).2 ⟨hl, hs⟩, rfl, rfl⟩
    · rename_i hs
      cases hc
      exact ⟨(wf_frameUnsynced_iff r).2 ⟨hl, Bool.eq_false_of_not_eq_true hs⟩, rfl, rfl⟩

/-! ## The operand byte of TA.ARM (log entry 10) -/

/-- A selector byte names a triple exactly when the triple is one of R121's and the byte is its selector. -/
theorem armOperands_eq_some_iff {sel : Byte} {space : Space} {base : BitVec 8} {len : BitVec 7} :
    armOperands sel = some (space, base, len) ↔ armTripleOk space base len = true ∧ sel = armSelector space base := by
  constructor
  · intro h
    unfold armOperands at h
    split at h
    · cases h; exact ⟨rfl, ‹_›⟩
    · split at h
      · cases h; exact ⟨rfl, ‹_›⟩
      · split at h
        · cases h; exact ⟨rfl, ‹_›⟩
        · cases h
  · rintro ⟨hok, rfl⟩
    cases space with
    | desc =>
      obtain ⟨rfl, rfl⟩ : base = 0 ∧ len = 7 := by simpa [armTripleOk] using hok
      rfl
    | pool =>
      obtain ⟨rfl | rfl, rfl⟩ : (base = 0 ∨ base = 84) ∧ len = 84 := by simpa [armTripleOk] using hok
      · rfl
      · rfl

/-! ## Operations -/

/-- An operation without operand bytes, read from its id (R100). -/
theorem encode_of_id {id : Byte} {i j : Instr} {rest left : List Byte} {k : Nat} (hid : id.toNat = k)
    (h : (.ok (j, rest) : Except DecodeError (Instr × List Byte)) = .ok (i, left))
    (hj : j.wf = true ∧ j.format = .evt ∧ encode j = [BitVec.ofNat 8 k]) :
    i.wf = true ∧ i.format = .evt ∧ id :: rest = encode i ++ left := by
  cases h
  obtain ⟨hwf, hfmt, henc⟩ := hj
  refine ⟨hwf, hfmt, ?_⟩
  rw [henc, ← hid, BitVec.ofNat_toNat, BitVec.setWidth_eq]
  rfl

theorem decodeEvt_sound {bytes left : List Byte} {i : Instr} (h : decodeEvt bytes = .ok (i, left)) :
    i.wf = true ∧ i.format = .evt ∧ bytes = encode i ++ left := by
  unfold decodeEvt at h
  split at h
  · cases h
  · rename_i id rest
    split at h
    case h_11 hid =>
      obtain rfl : id = 0x10 := BitVec.eq_of_toNat_eq hid
      split at h
      · cases h
      · split at h
        · rename_i harm
          cases h
          obtain ⟨hok, rfl⟩ := armOperands_eq_some_iff.1 harm
          exact ⟨hok, rfl, rfl⟩
        · cases h
    case h_12 hid =>
      obtain rfl : id = 0x11 := BitVec.eq_of_toNat_eq hid
      split at h
      · cases h
      · cases h
        exact ⟨rfl, rfl, rfl⟩
    case h_20 => cases h
    all_goals exact encode_of_id ‹_› h ⟨rfl, rfl, rfl⟩

theorem decodeEvt_taArm {sel : Byte} {space : Space} {base : BitVec 8} {len : BitVec 7} (rest : List Byte)
    (h : armOperands sel = some (space, base, len)) :
    decodeEvt (0x10 :: sel :: rest) = .ok (.taArm space base len, rest) := by
  simp [decodeEvt, h]

/-- The ids R100 leaves unassigned match no row of the id table. -/
theorem decodeEvt_unassigned {id : Byte} (rest : List Byte)
    (h : (0x0A ≤ id.toNat ∧ id.toNat ≤ 0x0F) ∨ (0x13 ≤ id.toNat ∧ id.toNat ≤ 0x17) ∨
      (0x1D ≤ id.toNat ∧ id.toNat ≠ 0x1F)) : decodeEvt (id :: rest) = .error (.unassignedId id) := by
  unfold decodeEvt
  dsimp only
  split
  case h_20 => rfl
  all_goals omega

end Sys2Proof
end

section
namespace Sys2Proof.Proofs

open Sys2Proof.Machine Sys2Proof.Safety

/-- Settles O4: an operation is its id, TA.ARM its id and the selector of its triple, and a record its own bytes, told
apart by the class that `wf` names. -/
theorem decodeOfEncode : Obligations.DecodeOfEncode := by
  intro i rest hwf
  cases i with
  | taArm space base len => exact decodeEvt_taArm rest (armOperands_eq_some_iff.2 ⟨hwf, rfl⟩)
  | taTx bytes =>
    obtain rfl : bytes = Config.cmdBytes := by simpa [Instr.wf] using hwf
    rfl
  | cmdXscan => exact decodeRecord_append (r := Config.cmdBytes) rest rfl (classify_c9 rfl)
  | descOk d =>
    obtain ⟨hl, he⟩ := (wf_descOk_iff d).1 hwf
    exact decodeRecord_append rest hl ((classify_d7 hl).trans (if_pos he))
  | descBad d =>
    obtain ⟨hl, he⟩ := (wf_descBad_iff d).1 hwf
    exact decodeRecord_append rest hl ((classify_d7 hl).trans (if_neg (ne_true_of_eq_false he)))
  | frameSynced f =>
    obtain ⟨hl, hs⟩ := (wf_frameSynced_iff f).1 hwf
    exact decodeRecord_append rest hl ((classify_f84 hl).trans (if_pos hs))
  | frameUnsynced f =>
    obtain ⟨hl, hs⟩ := (wf_frameUnsynced_iff f).1 hwf
    exact decodeRecord_append rest hl ((classify_f84 hl).trans (if_neg (ne_true_of_eq_false hs)))
  | reset | start | waits | dpoll | dclr | dsync | dcsum | dang | dcab | dflip => rfl
  | taRxb => rfl
  | rxcIdle | rxcHsok | rxcHsbad | rxcFrame | rxcOvr | rxc => rfl

/-- Settles O5: by the format asked for. -/
theorem encodeOfDecode : Obligations.EncodeOfDecode := by
  intro fmt bytes i left h
  cases fmt with
  | evt => exact decodeEvt_sound h
  | c9 => exact decodeRecord_sound nofun h
  | d7 => exact decodeRecord_sound nofun h
  | f84 => exact decodeRecord_sound nofun h

/-- Settles O6: no row of the id table has such an id. -/
theorem unassignedIdsAreRefused : Obligations.UnassignedIdsAreRefused := by
  intro id rest h
  exact decodeEvt_unassigned rest h

/-- Settles O3: by evaluation of the decoder on the eight strings. -/
theorem specWordsDecode : Obligations.SpecWordsDecode := ⟨rfl, rfl, rfl, rfl, rfl, rfl, rfl, rfl⟩

/-- Settles O1: the line at the head of the script is not empty, so it is the next one. -/
theorem stepRunsTheScriptedLine : Obligations.StepRunsTheScriptedLine := by
  intro s fmt b bs rest hscript
  have hline : nextLine s.script = some (fmt, b :: bs, rest) := by rw [hscript]; rfl
  refine ⟨fun i left hdec => ?_, fun e hdec => by simp [step, hline, hdec]⟩
  have hpush : pushBack fmt left rest = if left = [] then rest else { fmt := fmt, bytes := left } :: rest := by
    cases left <;> rfl
  simp [step, hline, hdec, hpush]

end Sys2Proof.Proofs
end

section
/-! SUPPORT. The bytes of a frame's header as pairs of nibbles (30_encoding.md R95, R96), the angle (R97) and the frame
that R103 builds. -/

namespace Sys2Proof.Machine

/-! ## Nibbles -/

/-- The byte `x : y` of R95 and R96: the high nibble, then the low one. -/
def nibbles (x y : BitVec 4) : Byte := x ++ y

@[simp] theorem hi4_nibbles (x y : BitVec 4) : hi4 (nibbles x y) = x := BitVec.extractLsb'_append_eq_left

@[simp] theorem lo4_nibbles (x y : BitVec 4) : lo4 (nibbles x y) = y := BitVec.extractLsb'_append_eq_right

/-- A byte is its high nibble, then its low one (R7). -/
theorem nibbles_hi4_lo4 (b : Byte) : nibbles (hi4 b) (lo4 b) = b := BitVec.extractLsb'_append_extractLsb'

theorem nibbles_inj {x y x' y' : BitVec 4} : nibbles x y = nibbles x' y' ↔ x = x' ∧ y = y' := by
  refine ⟨fun h => ⟨?_, ?_⟩, fun ⟨hx, hy⟩ => hx ▸ hy ▸ rfl⟩
  · simpa using congrArg hi4 h
  · simpa using congrArg lo4 h

theorem toNat_nibbles (x y : BitVec 4) : (nibbles x y).toNat = 16 * x.toNat + y.toNat := by
  rw [nibbles, BitVec.toNat_append, ← Nat.shiftLeft_add_eq_or_of_lt y.isLt, Nat.shiftLeft_eq, Nat.mul_comm]

theorem getElem_nibbles (x y : BitVec 4) {i : Nat} (h : i < 8) :
    (nibbles x y)[i] = if hi : i < 4 then y[i] else x[i - 4] :=
  BitVec.getElem_append h

/-- The mask F0 keeps the high nibble. -/
theorem and_F0_eq (b : Byte) : b &&& 0xF0#8 = nibbles (hi4 b) 0#4 := by
  ext i hi
  interval_cases i <;> simp [hi4, getElem_nibbles]

/-- The mask 0F keeps the low nibble. -/
theorem and_0F_eq (b : Byte) : b &&& 0x0F#8 = nibbles 0#4 (lo4 b) := by
  ext i hi
  interval_cases i <;> simp [lo4, getElem_nibbles]

theorem ushiftRight_4_eq (b : Byte) : b >>> 4 = nibbles 0#4 (hi4 b) := by
  ext i hi
  interval_cases i <;> simp [hi4, getElem_nibbles]

theorem nibbles_shiftLeft_4 (x y : BitVec 4) : nibbles x y <<< 4 = nibbles y 0#4 := by
  ext i hi
  interval_cases i <;> simp [getElem_nibbles]

theorem nibbles_or_nibbles (x y x' y' : BitVec 4) : nibbles x y ||| nibbles x' y' = nibbles (x ||| x') (y ||| y') := by
  ext i hi
  interval_cases i <;> simp [getElem_nibbles]

/-! ## The fields of a frame -/

/-- R95: `SYNC = hi4(byte0) : hi4(byte1)`. -/
theorem syncOf_eq (b0 b1 : Byte) : syncOf b0 b1 = nibbles (hi4 b0) (hi4 b1) := by
  rw [syncOf, and_F0_eq, ushiftRight_4_eq, nibbles_or_nibbles, BitVec.or_zero, BitVec.zero_or]

/-- R96: `CKRX = lo4(byte1) : lo4(byte0)`. -/
theorem ckrxOf_eq (b0 b1 : Byte) : ckrxOf b0 b1 = nibbles (lo4 b1) (lo4 b0) := by
  rw [ckrxOf, and_0F_eq, and_0F_eq, nibbles_shiftLeft_4, nibbles_or_nibbles, BitVec.or_zero, BitVec.zero_or]

/-- R95: in sync exactly when the high nibbles are A and 5. -/
theorem syncOf_eq_A5_iff (b0 b1 : Byte) : syncOf b0 b1 = 0xA5#8 ↔ hi4 b0 = 0xA ∧ hi4 b1 = 0x5 :=
  (syncOf_eq b0 b1) ▸ nibbles_inj (x' := 0xA) (y' := 0x5)

/-- A byte under the mask F0 is its high nibble. -/
theorem and_F0_eq_iff (b : Byte) (x : BitVec 4) : b &&& 0xF0#8 = nibbles x 0#4 ↔ hi4 b = x := by
  rw [and_F0_eq, nibbles_inj, and_iff_left rfl]

/-- R95, with the masks. -/
theorem syncOf_eq_A5_iff_masks (b0 b1 : Byte) : syncOf b0 b1 = 0xA5#8 ↔ b0 &&& 0xF0#8 = 0xA0#8 ∧ b1 &&& 0xF0#8 = 0x50#8 :=
  (syncOf_eq_A5_iff b0 b1).trans (and_congr (and_F0_eq_iff b0 0xA) (and_F0_eq_iff b1 0x5)).symm

theorem toNat_angleOf (b3 b2 : Byte) : (angleOf b3 b2).toNat = b3.toNat * 256 + b2.toNat := by
  have h3 := b3.isLt
  have h2 := b2.isLt
  simp only [angleOf, BitVec.toNat_add, BitVec.toNat_mul, BitVec.toNat_setWidth, BitVec.toNat_ofNat]
  omega

/-- The two bytes of a word, most significant first, give it back. -/
theorem angleOf_bytes (q : BitVec 16) : angleOf ((q >>> 8).setWidth 8) (q.setWidth 8) = q := by
  apply BitVec.eq_of_toNat_eq
  have hq := q.isLt
  rw [toNat_angleOf, BitVec.toNat_setWidth, BitVec.toNat_setWidth, BitVec.toNat_ushiftRight, Nat.shiftRight_eq_div_pow]
  omega

/-- The decoder's table tells frames apart by the same test (R95, R99). -/
theorem frameSyncOk_iff {f : List Byte} (hl : f.length = 84) :
    frameSyncOk f = true ↔ syncOf (f.getD 0 0) (f.getD 1 0) = 0xA5 := by
  match f, hl with
  | b0 :: b1 :: rest, _ => simp [frameSyncOk, syncOf_eq_A5_iff_masks]

/-! ## The frame builder (R103) -/

/-- A fold that reads a list by offsets is the fold over the list. -/
theorem foldl_range'_getD (l : List Byte) (n : Nat) (acc : Byte) :
    (List.range' n (l.length - n)).foldl (fun a i => a ^^^ l.getD i 0) acc = (l.drop n).foldl (· ^^^ ·) acc := by
  have hmap : (List.range' n (l.length - n)).map (fun i => l.getD i 0) = l.drop n := by
    refine List.ext_getElem (by simp) fun i _ h2 => ?_
    have hi : n + i < l.length := by
      rw [List.length_drop] at h2
      omega
    simp [List.getElem?_eq_getElem hi]
  rw [← hmap, List.foldl_map]

/-- The checksum of the frame with angle `q` and the cabins `cab`. -/
def frameCheck (q : BitVec 16) (cab : List Byte) : Byte :=
  cab.foldl (· ^^^ ·) (q.setWidth 8 ^^^ (q >>> 8).setWidth 8)

/-- The header of the built frame: the sync nibbles over the checksum's, the low one first. -/
theorem frameBytes_eq (q : BitVec 16) (cab : List Byte) :
    frameBytes q cab = nibbles 0xA (lo4 (frameCheck q cab)) :: nibbles 0x5 (hi4 (frameCheck q cab)) ::
      q.setWidth 8 :: (q >>> 8).setWidth 8 :: cab := by
  have hlow (ck : Byte) : 0xA0#8 ||| (ck &&& 0x0F#8) = nibbles 0xA (lo4 ck) := by
    rw [and_0F_eq]
    exact (nibbles_or_nibbles 0xA 0 0 (lo4 ck)).trans (by simp)
  have hhigh (ck : Byte) : 0x50#8 ||| (ck >>> 4) = nibbles 0x5 (hi4 ck) := by
    rw [ushiftRight_4_eq]
    exact (nibbles_or_nibbles 0x5 0 0 (hi4 ck)).trans (by simp)
  simp only [frameBytes, hlow, hhigh, frameCheck, List.cons_append, List.nil_append]

/-- R188 on a frame of a whole record: the XOR runs over the bytes after the header's two. -/
theorem decodeFrame_cons {b0 b1 : Byte} {body : List Byte} (hl : body.length = 82) :
    decodeFrame (fun i => (b0 :: b1 :: body).getD i 0) =
      if syncOf b0 b1 ≠ Config.syncValue then .syncFail
      else if body.foldl (· ^^^ ·) 0x00 ≠ ckrxOf b0 b1 then .csumFail
      else .accept (angleOf (body.getD 1 0) (body.getD 0 0)) := by
  have hfold := foldl_range'_getD (b0 :: b1 :: body) 2 0x00
  simp only [List.length_cons, hl, List.drop_succ_cons, List.drop_zero] at hfold
  exact hfold ▸ rfl

end Sys2Proof.Machine
end

section
namespace Sys2Proof.Proofs

open Sys2Proof.Machine Sys2Proof.Safety

/-- Settles O8: SYNC is the byte of the two high nibbles, and bytes agree exactly when their nibbles do. -/
theorem syncAssembly : Obligations.SyncAssembly := by
  intro b0 b1
  exact ⟨(congrArg BitVec.toNat (syncOf_eq b0 b1)).trans (toNat_nibbles _ _), syncOf_eq_A5_iff b0 b1,
    syncOf_eq_A5_iff_masks b0 b1⟩

/-- Settles O9: CKRX is the byte of the two low nibbles. -/
theorem checksumAssembly : Obligations.ChecksumAssembly := by
  intro b0 b1
  rw [ckrxOf_eq, toNat_nibbles]

/-- Settles O10: the sum does not wrap, so its slices are those of the two bytes. -/
theorem angleAssembly : Obligations.AngleAssembly := by
  intro b3 b2
  have hangle := toNat_angleOf b3 b2
  have h3 := b3.isLt
  have h2 := b2.isLt
  refine ⟨hangle, ?_, ?_, by rw [degrees, hangle]⟩
  · simp only [BitVec.extractLsb'_toNat, Nat.shiftRight_zero, hangle]
    omega
  · rw [BitVec.getLsbD, BitVec.getLsbD, hangle, Nat.testBit_eq_decide_div_mod_eq, Nat.testBit_eq_decide_div_mod_eq]
    congr 2
    omega

/-- Settles O7: the record table's class is the sync test. -/
theorem frameRecordsAreClassifiedBySync : Obligations.FrameRecordsAreClassifiedBySync := by
  intro f hl
  have hclass := classify_f84 hl
  refine ⟨fun hs => ?_, fun hs => ?_⟩
  · rw [if_pos ((frameSyncOk_iff hl).2 hs)] at hclass
    have hdec := decodeRecord_append [] hl hclass
    rwa [List.append_nil] at hdec
  · rw [if_neg (mt (frameSyncOk_iff hl).1 hs)] at hclass
    have hdec := decodeRecord_append [] hl hclass
    rwa [List.append_nil] at hdec

/-- Settles O37: the built header carries the sync nibbles and the nibbles of the XOR of the rest. -/
theorem builtFramesAreAccepted : Obligations.BuiltFramesAreAccepted := by
  intro q cab hcab
  rw [frameBytes_eq]
  refine ⟨by simp [hcab], ?_⟩
  rw [decodeFrame_cons (by simp [hcab])]
  have hsync (x y : BitVec 4) : syncOf (nibbles 0xA x) (nibbles 0x5 y) = Config.syncValue := by
    exact (syncOf_eq_A5_iff _ _).2 (by simp)
  have hsum : (q.setWidth 8 :: (q >>> 8).setWidth 8 :: cab).foldl (· ^^^ ·) 0x00 =
      ckrxOf (nibbles 0xA (lo4 (frameCheck q cab))) (nibbles 0x5 (hi4 (frameCheck q cab))) := by
    simp [ckrxOf_eq, nibbles_hi4_lo4, frameCheck]
  simp only [hsync, hsum, ne_eq, not_true, if_false]
  exact congrArg Verdict.accept (angleOf_bytes q)

end Sys2Proof.Proofs
end

section
/-! SUPPORT. A descriptor record on an armed receive (40_transport_adapter.md R122): the landing of a run of bytes in DESC,
and the two services of the completion (41_link_handshake.md R144, R145). -/

namespace Sys2Proof.Machine

/-! ## A run of bytes in memory -/

/-- The memory after storing the bytes one after another from offset `a`. -/
def storeRun (m : Memory) (a : Nat) : List Byte → Memory
  | [] => m
  | b :: rest => storeRun (Memory.write m a b) (a + 1) rest

/-- A run leaves what lies before it. -/
theorem read_storeRun_before (bytes : List Byte) : ∀ (m : Memory) {a x : Nat}, x < a →
    Memory.read (storeRun m a bytes) x = Memory.read m x := by
  induction bytes with
  | nil => exact fun _ _ _ _ => rfl
  | cons b rest ih =>
    intro m a x hx
    rw [storeRun, ih _ (Nat.lt_succ_of_lt hx), Memory.read_write_other m b (Nat.ne_of_lt hx)]

/-- Byte `k` of a run reads at offset `a + k`. -/
theorem read_storeRun (bytes : List Byte) : ∀ (m : Memory) (a : Nat) {k : Nat}, k < bytes.length →
    Memory.read (storeRun m a bytes) (a + k) = bytes[k]? := by
  induction bytes with
  | nil => exact fun _ _ k hk => absurd hk (Nat.not_lt_zero k)
  | cons b rest ih =>
    intro m a k hk
    rw [storeRun]
    cases k with
    | zero => exact (read_storeRun_before rest _ (Nat.lt_succ_self a)).trans (Memory.read_write_same m a b)
    | succ k =>
      rw [← Nat.add_assoc, Nat.add_right_comm, ih _ _ (Nat.lt_of_succ_lt_succ hk)]
      rfl

/-! ## The landing -/

theorem advanceReceive_last {s : State} (h : s.rxcnt + 1 = s.rxlen) :
    advanceReceive s = { s with rxcnt := s.rxlen, rxa := false, rxcPend := true } := by
  rw [advanceReceive, if_pos h, h]
  rfl

theorem advanceReceive_more {s : State} (h : s.rxcnt + 1 ≠ s.rxlen) :
    advanceReceive s = { s with rxcnt := s.rxcnt + 1 } :=
  if_neg h

theorem execTaRxb_desc {s : State} (b : Byte) (ha : s.rxa = true) (hsp : s.rxsp = .desc) (hlt : s.rxcnt.toNat < 7) :
    execTaRxb b s = .next (advanceReceive { s with
      desc := Memory.write s.desc s.rxcnt.toNat b, trace := s.trace ++ [.line (.taRxb b)] }) :=
  landByte_desc (s := s.log (.taRxb b)) b ha hsp hlt

/-- The bytes that fill an open DESC receive land in order and complete it (R122). -/
theorem landAll_fills_desc (bytes : List Byte) : ∀ {s : State}, s.rxa = true → s.rxsp = .desc → s.rxlen.toNat ≤ 7 →
    bytes ≠ [] → s.rxcnt.toNat + bytes.length = s.rxlen.toNat →
    landAll bytes s = .next { s with
      desc := storeRun s.desc s.rxcnt.toNat bytes, rxcnt := s.rxlen, rxa := false, rxcPend := true
      trace := s.trace ++ bytes.map fun b => .line (.taRxb b) } := by
  induction bytes with
  | nil => exact fun _ _ _ hne => absurd rfl hne
  | cons b rest ih =>
    intro s ha hsp h7 _ hlen
    rw [List.length_cons] at hlen
    have hsucc : (s.rxcnt + 1).toNat = s.rxcnt.toNat + 1 := by bv_omega
    rw [landAll, execTaRxb_desc b ha hsp (by omega), andThen_next]
    cases rest with
    | nil =>
      have hlast : s.rxcnt + 1 = s.rxlen := BitVec.eq_of_toNat_eq (hsucc.trans hlen)
      rw [advanceReceive_last (by exact hlast)]
      rfl
    | cons c more =>
      rw [List.length_cons] at hlen
      have hmore : s.rxcnt + 1 ≠ s.rxlen := fun e => by
        rw [e] at hsucc
        omega
      rw [advanceReceive_more (by exact hmore),
        ih (by exact ha) (by exact hsp) (by exact h7) nofun (by simp only [hsucc, List.length_cons]; omega)]
      simp only [hsucc, storeRun, List.map_cons, List.append_assoc, List.singleton_append]

/-- The state in which the seven bytes of a descriptor have landed and its completion is pending. -/
def State.withDescriptor (s : State) (d : List Byte) : State :=
  { s with
    desc := storeRun s.desc 0 d, rxcnt := 7, rxa := false, rxcPend := true
    trace := s.trace ++ d.map fun b => .line (.taRxb b) }

theorem State.read_withDescriptor (s : State) {d : List Byte} (hd : d.length = 7) {k : Nat} (hk : k < 7) :
    Memory.read (s.withDescriptor d).desc k = d[k]? := by
  have h := read_storeRun d s.desc 0 (hd.symm ▸ hk)
  rwa [Nat.zero_add] at h

/-- A descriptor record on the armed and empty receive ends in the service of its completion. -/
theorem receiveDescriptor_fills {s : State} {d : List Byte} (ha : s.rxa = true) (hsp : s.rxsp = .desc)
    (hlen : s.rxlen = 7) (hcnt : s.rxcnt = 0) (hd : d.length = 7) :
    receiveDescriptor d s = execRxc (s.withDescriptor d) := by
  have hland := landAll_fills_desc d ha hsp (by rw [hlen]; decide) (by rintro rfl; cases hd)
    (by rw [hcnt, hd, hlen]; rfl)
  have hstate : landAll d s = .next (s.withDescriptor d) := by
    rw [hland, hcnt, hlen, State.withDescriptor, hlen]
    rfl
  rw [receiveDescriptor, hstate, andThen_next]
  rfl

/-! ## The service of the handshake's completion -/

/-- R144: the descriptor matches. -/
theorem execRxcHsok_matching {s : State} (hp : s.rxcPend = true) (hl : s.link = .awaiting) (ha : s.rxa = false)
    (he : Memory.read s.desc 6 = some 0x82) :
    execRxcHsok s = .next { s with
      rxcPend := false, link := .streaming, rxa := true, rxsp := .pool, rxbase := s.widx, rxlen := 84, rxcnt := 0
      trace := s.trace ++ [.line .rxcHsok, .arm .pool s.widx 84] } := by
  rw [execRxcHsok, if_pos ⟨hp, hl⟩, withEcho_some he, if_pos (show (0x82 : Byte) = Config.echoValue from rfl),
    armReceive_unarmed (by exact ha)]
  simp [State.log, State.emit, State.clearPend]

/-- R145: the descriptor does not match. -/
theorem execRxcHsbad_mismatching {s : State} (hp : s.rxcPend = true) (hl : s.link = .awaiting) {echo : Byte}
    (he : Memory.read s.desc 6 = some echo) (hne : echo ≠ 0x82) :
    execRxcHsbad s = .next { s with
      rxcPend := false, cntHsbad := bump s.cfg s.cntHsbad
      trace := s.trace ++ [.line .rxcHsbad, .drop (.hsMismatch echo)] } := by
  rw [execRxcHsbad, if_pos ⟨hp, hl⟩, withEcho_some he, if_neg (show ¬ echo = Config.echoValue from hne)]
  simp [State.raiseDrop, State.countDrop, State.log, State.emit, State.clearPend]

/-- R160 while the descriptor is awaited: DESC[6] selects the variant. -/
theorem execRxc_awaiting {s : State} (hp : s.rxcPend = true) (hl : s.link = .awaiting) {echo : Byte}
    (he : Memory.read s.desc 6 = some echo) :
    execRxc s = if echo = 0x82 then execRxcHsok s else execRxcHsbad s := by
  simp only [execRxc, hp, hl, if_true]
  exact withEcho_some he _

end Sys2Proof.Machine
end

section
namespace Sys2Proof.Proofs

open Sys2Proof.Machine Sys2Proof.Safety

/-- Settles O40: the seven bytes fill DESC and complete the receive, and byte 6 is the one that RXC reads. -/
theorem descriptorRecordDecidesTheHandshake : Obligations.DescriptorRecordDecidesTheHandshake := by
  intro s d hl ha hsp hlen hcnt hd
  have hrec := receiveDescriptor_fills ha hsp hlen hcnt hd
  have hread : ∀ k, k < 7 → Memory.read (s.withDescriptor d).desc k = d[k]? := fun k => s.read_withDescriptor hd
  obtain ⟨echo, hecho⟩ : ∃ echo, d[6]? = some echo := ⟨_, List.getElem?_eq_getElem (by omega)⟩
  have hbyte : Memory.read (s.withDescriptor d).desc 6 = some echo := (hread 6 (by decide)).trans hecho
  have hserve := hrec.trans (execRxc_awaiting (s := s.withDescriptor d) rfl hl hbyte)
  rw [hecho]
  refine ⟨fun hok => ?_, fun hbad => ?_⟩
  · cases hok
    have hok := execRxcHsok_matching (s := s.withDescriptor d) rfl hl rfl hbyte
    exact ⟨_, (hserve.trans (if_pos rfl)).trans hok, hread, rfl⟩
  · have hne : echo ≠ 0x82 := fun he => hbad (congrArg some he)
    have hdrop := execRxcHsbad_mismatching (s := s.withDescriptor d) rfl hl hbyte hne
    exact ⟨_, (hserve.trans (if_neg hne)).trans hdrop, hread, rfl⟩

end Sys2Proof.Proofs
end

section
/-! SUPPORT. Where each operation runs (30_encoding.md R100): in a state of the invariant an enabled operation answers a
next state, which meets the invariant too, and so do the compositions that R103 makes of them. -/

namespace Sys2Proof.Safety

open Sys2Proof.Machine

/-! ## Results that go on -/

/-- The result is a next state of the invariant. -/
def RunsSafely (r : Result) : Prop := ∃ t, r = .next t ∧ BlockInv t

theorem RunsSafely.next {s : State} (h : BlockInv s) : RunsSafely (.next s) := ⟨s, rfl, h⟩

theorem RunsSafely.andThen {r : Result} {f : State → Result} (hr : RunsSafely r)
    (hf : ∀ u, r = .next u → BlockInv u → RunsSafely (f u)) : RunsSafely (andThen r f) := by
  obtain ⟨u, rfl, hu⟩ := hr
  exact hf u rfl hu

theorem RunsSafely.exists_next {r : Result} (h : RunsSafely r) : ∃ t, r = .next t := by
  obtain ⟨t, ht, -⟩ := h
  exact ⟨t, ht⟩

/-- A safe operation that answers a next state. -/
theorem Safe.runs {r : Result} (h : Safe r) (hx : ∃ t, r = .next t) : RunsSafely r := by
  obtain ⟨t, ht⟩ := hx
  exact ⟨t, ht, h.keeps t ht⟩

/-! ## Where nothing is armed -/

theorem RegInv.unarmed_of_pending {s : State} (h : RegInv s) (hp : s.rxcPend = true) : s.rxa = false := by
  refine Bool.eq_false_of_not_eq_true fun ha => ?_
  obtain ⟨hn, -⟩ := h.armed_open ha
  cases hn.symm.trans hp

theorem RegInv.unarmed_of_idle {s : State} (h : RegInv s) (hp : s.tph = .tIdle) : s.rxa = false := by
  have hl := h.idle_iff.1 hp
  refine Bool.eq_false_of_not_eq_true fun ha => ?_
  rcases h.armed_kind ha with ⟨hk, -⟩ | ⟨hk, -⟩ <;> cases hl.symm.trans hk

/-! ## The single operations -/

section Operations

variable {s : State} (h : BlockInv s)
include h

theorem execStart_runs (hp : s.tph = .tIdle) : RunsSafely (execStart s) := by
  refine (execStart_safe h).runs ?_
  rw [execStart, if_pos hp, armReceive_unarmed (by exact h.regs.unarmed_of_idle hp)]
  exact ⟨_, rfl⟩

theorem execWaits_runs (hp : s.tph = .tWait) : RunsSafely (execWaits s) := by
  refine (execWaits_safe h).runs ?_
  rw [execWaits, if_pos hp]
  split <;> exact ⟨_, rfl⟩

theorem execDpoll_runs (hp : s.tph = .dPoll) : RunsSafely (execDpoll s) := by
  refine (execDpoll_safe h).runs ?_
  rw [execDpoll, if_pos hp]
  split <;> exact ⟨_, rfl⟩

theorem execDclr_runs (hp : s.tph = .dClr) : RunsSafely (execDclr s) :=
  (execDclr_safe h).runs ⟨_, if_pos hp⟩

theorem execDsync_runs (hp : s.tph = .dSync) : RunsSafely (execDsync s) :=
  (execDsync_safe h).runs (execDsync_completes (h.allReadable (decodeOpen_of_tph hp)) hp)

theorem execDcsum_runs (hp : s.tph = .dCsum) : RunsSafely (execDcsum s) :=
  (execDcsum_safe h).runs (execDcsum_completes (h.allReadable (decodeOpen_of_tph hp)) hp)

theorem execDang_runs (hp : s.tph = .dAng) : RunsSafely (execDang s) :=
  (execDang_safe h).runs (execDang_completes (h.allReadable (decodeOpen_of_tph hp)) hp)

theorem execDflip_runs (hp : s.tph = .dFlip) : RunsSafely (execDflip s) :=
  (execDflip_safe h).runs ⟨_, if_pos hp⟩

theorem execRxcIdle_runs (hp : s.rxcPend = true) (hl : s.link = .idle) : RunsSafely (execRxcIdle s) :=
  (execRxcIdle_safe h).runs ⟨_, if_pos ⟨hp, hl⟩⟩

theorem execRxcHsok_runs (hp : s.rxcPend = true) (hl : s.link = .awaiting) (he : Memory.read s.desc 6 = some 0x82) :
    RunsSafely (execRxcHsok s) :=
  (execRxcHsok_safe h).runs ⟨_, execRxcHsok_matching hp hl (h.regs.unarmed_of_pending hp) he⟩

theorem execRxcHsbad_runs (hp : s.rxcPend = true) (hl : s.link = .awaiting) (he : Memory.read s.desc 6 ≠ some 0x82) :
    RunsSafely (execRxcHsbad s) := by
  obtain ⟨echo, hecho⟩ := h.echo_written hp hl
  have hne : echo ≠ 0x82 := fun hb => he (hb ▸ hecho)
  exact (execRxcHsbad_safe h).runs ⟨_, execRxcHsbad_mismatching hp hl hecho hne⟩

theorem execRxcFrame_runs (hp : s.rxcPend = true) (hl : s.link = .streaming) (hr : s.ready = false) :
    RunsSafely (execRxcFrame s) := by
  refine (execRxcFrame_safe h).runs ?_
  rw [execRxcFrame, if_pos ⟨hp, hl, hr⟩, armReceive_unarmed (by exact h.regs.unarmed_of_pending hp)]
  exact ⟨_, rfl⟩

theorem execRxcOvr_runs (hp : s.rxcPend = true) (hl : s.link = .streaming) (hr : s.ready = true) :
    RunsSafely (execRxcOvr s) := by
  refine (execRxcOvr_safe h).runs ?_
  rw [execRxcOvr, if_pos ⟨hp, hl, hr⟩]
  split
  · exact ⟨_, rfl⟩
  · exact ⟨_, armReceive_unarmed (by exact h.regs.unarmed_of_pending hp) _ _ _⟩

/-- A pending notification can always be served (R160). -/
theorem execRxc_runs (hp : s.rxcPend = true) : RunsSafely (execRxc s) := by
  cases hl : s.link with
  | idle => exact absurd hl (h.regs.pending_started hp)
  | awaiting =>
    obtain ⟨echo, hecho⟩ := h.echo_written hp hl
    rw [execRxc_awaiting hp hl hecho]
    split
    · rename_i he
      exact execRxcHsok_runs h hp hl (he ▸ hecho)
    · rename_i he
      exact execRxcHsbad_runs h hp hl fun hb => he (Option.some.inj (hecho.symm.trans hb))
  | streaming =>
    simp only [execRxc, hp, hl, if_true]
    split
    · exact execRxcOvr_runs h hp hl ‹_›
    · exact execRxcFrame_runs h hp hl (Bool.eq_false_of_not_eq_true ‹_›)

/-! ## The compositions of R103 -/

omit h in
theorem landAll_runs (bytes : List Byte) : ∀ {s : State}, BlockInv s → RunsSafely (landAll bytes s) := by
  induction bytes with
  | nil => exact RunsSafely.next
  | cons b rest ih =>
    intro s h
    exact RunsSafely.andThen (execTaRxb_completes h b) fun _ _ => ih

theorem serveIfPending_runs : RunsSafely (serveIfPending s) := by
  unfold serveIfPending
  split
  · exact execRxc_runs h ‹_›
  · exact RunsSafely.next h

theorem whenPhase_runs {p : Phase} {f : State → Result} (hf : s.tph = p → RunsSafely (f s)) :
    RunsSafely (whenPhase p f s) := by
  unfold whenPhase
  split
  · exact hf ‹_›
  · exact RunsSafely.next h

theorem decodeOnce_runs : RunsSafely (decodeOnce s) := by
  unfold decodeOnce
  split
  · rename_i hp
    refine (execDpoll_runs h hp).andThen fun t1 _ h1 => ?_
    refine (whenPhase_runs h1 (execDclr_runs h1)).andThen fun t2 _ h2 => ?_
    refine (whenPhase_runs h2 (execDsync_runs h2)).andThen fun t3 _ h3 => ?_
    refine (whenPhase_runs h3 (execDcsum_runs h3)).andThen fun t4 _ h4 => ?_
    refine (whenPhase_runs h4 (execDang_runs h4)).andThen fun t5 _ h5 => ?_
    exact whenPhase_runs h5 (execDflip_runs h5)
  · exact RunsSafely.next h

theorem receiveDescriptor_runs (d : List Byte) : RunsSafely (receiveDescriptor d s) :=
  (landAll_runs d h).andThen fun _ _ => serveIfPending_runs

theorem receiveFrame_runs (f : List Byte) : RunsSafely (receiveFrame f s) :=
  (landAll_runs f h).andThen fun _ _ hu => (serveIfPending_runs hu).andThen fun _ _ => decodeOnce_runs

/-! ## Every instruction -/

/-- The operations that R100 selects answer a next state. -/
theorem exec_completes {i : Instr} (hi : enabled s i = true) : ∃ t, exec i s = .next t := by
  cases i with
  | reset => exact ⟨_, rfl⟩
  | start => exact (execStart_runs h (of_decide_eq_true hi)).exists_next
  | waits => exact (execWaits_runs h (of_decide_eq_true hi)).exists_next
  | dpoll => exact (execDpoll_runs h (of_decide_eq_true hi)).exists_next
  | dclr => exact (execDclr_runs h (of_decide_eq_true hi)).exists_next
  | dsync => exact (execDsync_runs h (of_decide_eq_true hi)).exists_next
  | dcsum => exact (execDcsum_runs h (of_decide_eq_true hi)).exists_next
  | dang => exact (execDang_runs h (of_decide_eq_true hi)).exists_next
  | dcab => cases hi
  | dflip => exact (execDflip_runs h (of_decide_eq_true hi)).exists_next
  | taArm space base len => exact ⟨_, armReceive_unarmed (by simpa [enabled] using hi) space base len⟩
  | taRxb b => exact RunsSafely.exists_next (execTaRxb_completes h b)
  | taTx => exact ⟨_, rfl⟩
  | rxcIdle =>
    obtain ⟨hp, hl⟩ : s.rxcPend = true ∧ s.link = .idle := by simpa [enabled] using hi
    exact (execRxcIdle_runs h hp hl).exists_next
  | rxcHsok =>
    obtain ⟨⟨hp, hl⟩, he⟩ : (s.rxcPend = true ∧ s.link = .awaiting) ∧ Memory.read s.desc 6 = some 0x82 := by
      simpa [enabled] using hi
    exact (execRxcHsok_runs h hp hl he).exists_next
  | rxcHsbad =>
    obtain ⟨⟨hp, hl⟩, he⟩ : (s.rxcPend = true ∧ s.link = .awaiting) ∧ Memory.read s.desc 6 ≠ some 0x82 := by
      simpa [enabled] using hi
    exact (execRxcHsbad_runs h hp hl he).exists_next
  | rxcFrame =>
    obtain ⟨⟨hp, hl⟩, hr⟩ : (s.rxcPend = true ∧ s.link = .streaming) ∧ s.ready = false := by simpa [enabled] using hi
    exact (execRxcFrame_runs h hp hl hr).exists_next
  | rxcOvr =>
    obtain ⟨⟨hp, hl⟩, hr⟩ : (s.rxcPend = true ∧ s.link = .streaming) ∧ s.ready = true := by simpa [enabled] using hi
    exact (execRxcOvr_runs h hp hl hr).exists_next
  | rxc => exact (execRxc_runs h hi).exists_next
  | cmdXscan => exact ⟨_, rfl⟩
  | descOk d => exact (receiveDescriptor_runs h d).exists_next
  | descBad d => exact (receiveDescriptor_runs h d).exists_next
  | frameSynced f => exact (receiveFrame_runs h f).exists_next
  | frameUnsynced f => exact (receiveFrame_runs h f).exists_next

end Operations

/-- The service of a completion finds one pending. -/
theorem execRxc_pending {s t : State} (hx : execRxc s = .next t) : s.rxcPend = true := by
  unfold execRxc at hx
  split at hx
  · rename_i hp
    exact hp
  · cases hx

/-- What answers a next state is selected, in any state (R8, log entry 14). -/
theorem enabled_of_exec_next {i : Instr} {s t : State} (hx : exec i s = .next t) : enabled s i = true := by
  cases i with
  | start => obtain ⟨hp, -⟩ := execStart_next hx; exact decide_eq_true hp
  | waits => obtain ⟨hp, -⟩ := execWaits_next hx; exact decide_eq_true hp
  | dpoll => obtain ⟨hp, -⟩ := execDpoll_next hx; exact decide_eq_true hp
  | dclr => obtain ⟨hp, -⟩ := execDclr_next hx; exact decide_eq_true hp
  | dsync => obtain ⟨hp, -⟩ := execDsync_next hx; exact decide_eq_true hp
  | dcsum => obtain ⟨hp, -⟩ := execDcsum_next hx; exact decide_eq_true hp
  | dang => obtain ⟨hp, -⟩ := execDang_next hx; exact decide_eq_true hp
  | dcab => cases hx
  | dflip => obtain ⟨hp, -⟩ := execDflip_next hx; exact decide_eq_true hp
  | taArm => obtain ⟨ha, -⟩ := execTaArm_next hx; simp [enabled, ha]
  | rxcIdle => obtain ⟨hp, hl, -⟩ := execRxcIdle_next hx; simp [enabled, hp, hl]
  | rxcHsok => obtain ⟨hp, hl, he, -⟩ := execRxcHsok_next hx; simp [enabled, hp, hl, he]
  | rxcHsbad => obtain ⟨hp, hl, b, he, hb, -⟩ := execRxcHsbad_next hx; simpa [enabled, hp, hl, he] using hb
  | rxcFrame => obtain ⟨hp, hl, hr, -⟩ := execRxcFrame_next hx; simp [enabled, hp, hl, hr]
  | rxcOvr => obtain ⟨hp, hl, hr, -⟩ := execRxcOvr_next hx; simp [enabled, hp, hl, hr]
  | rxc => exact execRxc_pending hx
  | reset | taRxb | taTx | cmdXscan | descOk | descBad | frameSynced | frameUnsynced => rfl

end Sys2Proof.Safety
end

section
/-! SUPPORT. SETTLE (30_encoding.md R103): how many task steps a state is away from a settled one, and that each step
brings it one nearer. -/

namespace Sys2Proof.Safety

open Sys2Proof.Machine

/-- The task steps of a frame that waits at the poll: DPOLL to DFLIP. -/
def stepsForHandedFrame (s : State) : Nat := if s.ready = true then 6 else 0

/-- A bound on the task steps before the next one would change nothing. -/
def stepsToSettle (s : State) : Nat :=
  match s.tph with
  | .tIdle => 0
  | .tWait => if s.link = .streaming then 1 + stepsForHandedFrame s else 0
  | .dPoll => stepsForHandedFrame s
  | .dClr => 5
  | .dSync => 4 + stepsForHandedFrame s
  | .dCsum => 3 + stepsForHandedFrame s
  | .dAng => 2 + stepsForHandedFrame s
  | .dFlip => 1 + stepsForHandedFrame s

theorem stepsToSettle_le (s : State) : stepsToSettle s ≤ 10 := by
  have hframe : stepsForHandedFrame s ≤ 6 := by
    unfold stepsForHandedFrame
    split <;> omega
  unfold stepsToSettle
  split
  case h_2 => split <;> omega
  all_goals omega

/-- Settled is: nothing pending and no step to go (R103). -/
theorem settled_iff (s : State) : s.settled = true ↔ s.rxcPend = false ∧ stepsToSettle s = 0 := by
  unfold State.settled stepsToSettle stepsForHandedFrame
  cases s.tph <;> simp

/-- The task operation of the phase always runs. -/
theorem taskStep_runs {s : State} (h : BlockInv s) : RunsSafely (taskStep s) := by
  unfold taskStep
  split
  · exact RunsSafely.next h
  · exact execWaits_runs h ‹_›
  · exact execDpoll_runs h ‹_›
  · exact execDclr_runs h ‹_›
  · exact execDsync_runs h ‹_›
  · exact execDcsum_runs h ‹_›
  · exact execDang_runs h ‹_›
  · exact execDflip_runs h ‹_›

/-- A task step with steps to go leaves fewer, and no notification appears. -/
theorem taskStep_decreases {s t : State} (hgo : stepsToSettle s ≠ 0) (hx : taskStep s = .next t) :
    t.rxcPend = s.rxcPend ∧ stepsToSettle t < stepsToSettle s := by
  cases hp : s.tph with
  | tIdle => exact absurd (by simp [stepsToSettle, hp]) hgo
  | tWait =>
    simp only [taskStep, hp] at hx
    obtain ⟨-, rfl⟩ := execWaits_next hx
    by_cases hl : s.link = .streaming
    · simp [stepsToSettle, stepsForHandedFrame, hp, hl]
    · exact absurd (by simp [stepsToSettle, hp, hl]) hgo
  | dPoll =>
    simp only [taskStep, hp] at hx
    obtain ⟨-, rfl⟩ := execDpoll_next hx
    by_cases hr : s.ready = true
    · simp [stepsToSettle, stepsForHandedFrame, hp, hr]
    · exact absurd (by simp [stepsToSettle, stepsForHandedFrame, hp, hr]) hgo
  | dClr =>
    simp only [taskStep, hp] at hx
    obtain ⟨-, rfl⟩ := execDclr_next hx
    simp [stepsToSettle, stepsForHandedFrame, hp]
  | dSync =>
    simp only [taskStep, hp] at hx
    obtain ⟨-, b0, b1, n, -, -, ⟨-, rfl⟩ | ⟨-, rfl⟩⟩ := execDsync_next hx <;>
      simp [stepsToSettle, stepsForHandedFrame, hp]
  | dCsum =>
    simp only [taskStep, hp] at hx
    obtain ⟨-, acc, ck, n, ⟨-, rfl⟩ | ⟨-, rfl⟩⟩ := execDcsum_next hx <;>
      simp [stepsToSettle, stepsForHandedFrame, hp]
  | dAng =>
    simp only [taskStep, hp] at hx
    obtain ⟨-, b3, b2, n, -, -, rfl⟩ := execDang_next hx
    simp [stepsToSettle, stepsForHandedFrame, hp]
  | dFlip =>
    simp only [taskStep, hp] at hx
    obtain ⟨-, rfl⟩ := execDflip_next hx
    simp [stepsToSettle, stepsForHandedFrame, hp]

theorem settleTask_settles (fuel : Nat) : ∀ {s : State}, BlockInv s → s.rxcPend = false → stepsToSettle s ≤ fuel →
    ∃ t, settleTask fuel s = .next t ∧ t.settled = true ∧ BlockInv t := by
  induction fuel with
  | zero =>
    intro s h hp hle
    exact ⟨s, rfl, (settled_iff s).2 ⟨hp, Nat.le_zero.1 hle⟩, h⟩
  | succ n ih =>
    intro s h hp hle
    unfold settleTask
    split
    · exact ⟨s, rfl, ‹_›, h⟩
    · rename_i hns
      have hgo : stepsToSettle s ≠ 0 := fun h0 => hns ((settled_iff s).2 ⟨hp, h0⟩)
      obtain ⟨u, hu, hinv⟩ := taskStep_runs h
      obtain ⟨hpu, hlt⟩ := taskStep_decreases hgo hu
      rw [hu, andThen_next]
      exact ih hinv (hpu.trans hp) (by omega)

/-- After the service no notification is pending (R160). -/
theorem serveIfPending_clears {s t : State} (hx : serveIfPending s = .next t) : t.rxcPend = false := by
  unfold serveIfPending at hx
  split at hx
  · rw [execRxc_frame hx]
  · cases hx
    exact Bool.eq_false_of_not_eq_true ‹_›

end Sys2Proof.Safety
end

section
namespace Sys2Proof.Proofs

open Sys2Proof.Machine Sys2Proof.Safety

/-- Settles O48: one lemma says where each operation runs, the other that nothing else does. -/
theorem operationsCompleteExactlyWhereEnabled : Obligations.OperationsCompleteExactlyWhereEnabled := by
  intro i s h
  exact ⟨fun ⟨_, ht⟩ => enabled_of_exec_next ht, exec_completes h⟩

/-- Settles O57: the service leaves at most ten task steps to go, and SETTLE allows sixteen. -/
theorem settleReachesASettledState : Obligations.SettleReachesASettledState := by
  intro s h
  obtain ⟨u, hu, hinv⟩ := serveIfPending_runs h
  rw [settle, hu, andThen_next]
  exact settleTask_settles 16 hinv (serveIfPending_clears hu) ((stepsToSettle_le u).trans (by decide))

end Sys2Proof.Proofs
end

section
/-! SUPPORT. The pool receive (40_transport_adapter.md R122, R126): a byte on an armed receive, and the landing of a run of
bytes that fits in it. -/

namespace Sys2Proof.Machine

/-! ## A run of bytes in memory -/

/-- A run leaves what lies behind it. -/
theorem read_storeRun_after (bytes : List Byte) : ∀ (m : Memory) {a x : Nat}, a + bytes.length ≤ x →
    Memory.read (storeRun m a bytes) x = Memory.read m x := by
  induction bytes with
  | nil => exact fun _ _ _ _ => rfl
  | cons b rest ih =>
    intro m a x hx
    rw [List.length_cons] at hx
    rw [storeRun, ih _ (by omega), Memory.read_write_other m b (by omega)]

/-! ## One byte -/

theorem execTaRxb_unarmed {s : State} (b : Byte) (ha : s.rxa = false) :
    execTaRxb b s = .next { s with trace := s.trace ++ [.line (.taRxb b), .lost b] } := by
  rw [execTaRxb, landByte_unarmed (s := s.log (.taRxb b)) ha]
  simp [State.log, State.emit]

theorem execTaRxb_pool {s : State} (b : Byte) (ha : s.rxa = true) (hsp : s.rxsp = .pool)
    (hlt : s.rxbase.toNat + s.rxcnt.toNat < 168) :
    execTaRxb b s = .next (advanceReceive { s with
      pool := Memory.write s.pool (s.rxbase.toNat + s.rxcnt.toNat) b
      shadow := if s.tears (s.rxbase.toNat + s.rxcnt.toNat) then
          (s.rxbase.toNat + s.rxcnt.toNat, Memory.read s.pool (s.rxbase.toNat + s.rxcnt.toNat)) :: s.shadow
        else s.shadow
      trace := s.trace ++ [.line (.taRxb b)] }) :=
  landByte_pool (s := s.log (.taRxb b)) b ha hsp hlt

/-- A byte on an armed receive is counted and shown as its line alone, in either space (R122). -/
theorem execTaRxb_armed {b : Byte} {s t : State} (ha : s.rxa = true) (hx : execTaRxb b s = .next t) :
    t.trace = s.trace ++ [.line (.taRxb b)] ∧ t.rxlen = s.rxlen ∧ t.rxcnt = s.rxcnt + 1 ∧
      (s.rxcnt + 1 ≠ s.rxlen → t.rxa = true) := by
  obtain ⟨hn, -⟩ | ⟨-, -, -, rfl⟩ | ⟨-, -, -, rfl⟩ := execTaRxb_next hx
  · cases hn.symm.trans ha
  · exact ⟨rfl, rfl, rfl, fun hmore => if_neg hmore⟩
  · exact ⟨rfl, rfl, rfl, fun hmore => if_neg hmore⟩

/-! ## A run of bytes -/

/-- The state in which a run of bytes has landed in the pool, with what it overwrote under a decode. -/
def State.withPoolRun (s : State) (bytes : List Byte) (shadow : List (Nat × Option Byte)) : State :=
  { s with
    pool := storeRun s.pool (s.rxbase.toNat + s.rxcnt.toNat) bytes
    rxcnt := s.rxcnt + BitVec.ofNat 7 bytes.length
    rxa := if s.rxcnt.toNat + bytes.length = s.rxlen.toNat then false else s.rxa
    rxcPend := if s.rxcnt.toNat + bytes.length = s.rxlen.toNat then true else s.rxcPend
    shadow := shadow
    trace := s.trace ++ bytes.map fun b => .line (.taRxb b) }

/-- The bytes that fit in an open pool receive land in order, and complete it where they fill it (R122). -/
theorem landAll_lands_pool (bytes : List Byte) : ∀ {s : State}, s.rxa = true → s.rxsp = .pool →
    s.rxbase.toNat + s.rxlen.toNat ≤ 168 → s.rxcnt.toNat < s.rxlen.toNat →
    s.rxcnt.toNat + bytes.length ≤ s.rxlen.toNat →
    ∃ shadow, landAll bytes s = .next (s.withPoolRun bytes shadow) := by
  induction bytes with
  | nil =>
    intro s _ _ _ hopen _
    refine ⟨s.shadow, ?_⟩
    simp [landAll, State.withPoolRun, storeRun, Nat.ne_of_lt hopen]
  | cons b rest ih =>
    intro s ha hsp hin hopen hfit
    rw [List.length_cons] at hfit
    have hsucc : (s.rxcnt + 1).toNat = s.rxcnt.toNat + 1 := by bv_omega
    have hcount : s.rxcnt + BitVec.ofNat 7 (rest.length + 1) = s.rxcnt + 1 + BitVec.ofNat 7 rest.length := by bv_omega
    obtain ⟨overwritten, hfirst⟩ : ∃ overwritten, execTaRxb b s = .next (advanceReceive { s with
        pool := Memory.write s.pool (s.rxbase.toNat + s.rxcnt.toNat) b, shadow := overwritten
        trace := s.trace ++ [.line (.taRxb b)] }) := ⟨_, execTaRxb_pool b ha hsp (by omega)⟩
    rw [landAll, hfirst, andThen_next]
    by_cases hlast : s.rxcnt + 1 = s.rxlen
    · rw [hlast] at hsucc
      obtain rfl : rest = [] := List.eq_nil_of_length_eq_zero (by omega)
      refine ⟨overwritten, ?_⟩
      rw [advanceReceive_last (by exact hlast)]
      have hone : s.rxcnt + 1#7 = s.rxlen := hlast
      simp [landAll, State.withPoolRun, storeRun, hsucc, hone]
    · have hne : (s.rxcnt + 1).toNat ≠ s.rxlen.toNat := fun e => hlast (BitVec.eq_of_toNat_eq e)
      rw [advanceReceive_more (by exact hlast)]
      obtain ⟨shadow, hrest⟩ := ih (s := { s with
          pool := Memory.write s.pool (s.rxbase.toNat + s.rxcnt.toNat) b, rxcnt := s.rxcnt + 1, shadow := overwritten
          trace := s.trace ++ [.line (.taRxb b)] }) ha hsp hin (by simp only; omega) (by simp only; omega)
      refine ⟨shadow, hrest.trans ?_⟩
      simp only [State.withPoolRun, storeRun, hsucc, hcount, List.length_cons, List.map_cons, List.append_assoc,
        List.singleton_append, Nat.add_assoc, Nat.add_comm 1]

end Sys2Proof.Machine
end

section
/-! SUPPORT. Which events an operation adds to the trace (R102), and that bytes that fit in the armed receive are not lost
(R124, R247). -/

namespace Sys2Proof.Safety

open Sys2Proof.Machine

/-- The received bytes as lines of their own are the run of R102. -/
theorem runInstrs_taRxb (bytes : List Byte) : ∀ s : State, runInstrs (bytes.map .taRxb) s = landAll bytes s := by
  induction bytes with
  | nil => exact fun _ => rfl
  | cons b rest ih => exact fun s => congrArg (andThen (execTaRxb b s)) (funext ih)

/-! ## The events of one operation -/

/-- The events that an operation may show: only START and the requests send, only DANG publishes, only a received byte
is lost (R102, R123, R124, R185). -/
def MayEmit (i : Instr) : Event → Prop
  | .line _ => True
  | .tx bytes => ownStep i = true → i = .start ∧ bytes = Config.cmdBytes
  | .arm _ _ _ => True
  | .pub _ => i = .dang
  | .drop _ => True
  | .lost b => i = .taRxb b

/-- The five variants of RXC show only their line, a drop or an arming, which any operation may. -/
theorem service_emits (i : Instr) {s t : State}
    (hx : execRxcIdle s = .next t ∨ execRxcHsok s = .next t ∨ execRxcHsbad s = .next t ∨ execRxcFrame s = .next t ∨
      execRxcOvr s = .next t) : ∃ new, t.trace = s.trace ++ new ∧ ∀ e ∈ new, MayEmit i e := by
  rcases hx with hx | hx | hx | hx | hx
  · obtain ⟨-, -, rfl⟩ := execRxcIdle_next hx; exact ⟨_, rfl, by simp [MayEmit]⟩
  · obtain ⟨-, -, -, -, rfl⟩ := execRxcHsok_next hx; exact ⟨_, rfl, by simp [MayEmit]⟩
  · obtain ⟨-, -, b, -, -, rfl⟩ := execRxcHsbad_next hx; exact ⟨_, rfl, by simp [MayEmit]⟩
  · obtain ⟨-, -, -, -, rfl⟩ := execRxcFrame_next hx; exact ⟨_, rfl, by simp [MayEmit]⟩
  · obtain ⟨-, -, -, ⟨-, rfl⟩ | ⟨-, -, rfl⟩⟩ := execRxcOvr_next hx <;> exact ⟨_, rfl, by simp [MayEmit]⟩

/-- A single operation appends events of its own kinds. -/
theorem exec_emits {i : Instr} {s t : State} (hr : isRecord i = false) (hx : exec i s = .next t) :
    ∃ new, t.trace = s.trace ++ new ∧ ∀ e ∈ new, MayEmit i e := by
  cases i with
  | reset => cases hx; exact ⟨_, rfl, by simp [MayEmit]⟩
  | start => obtain ⟨-, -, rfl⟩ := execStart_next hx; exact ⟨_, rfl, by simp [MayEmit]⟩
  | waits => obtain ⟨-, rfl⟩ := execWaits_next hx; exact ⟨_, rfl, by simp [MayEmit]⟩
  | dpoll => obtain ⟨-, rfl⟩ := execDpoll_next hx; exact ⟨_, rfl, by simp [MayEmit]⟩
  | dclr => obtain ⟨-, rfl⟩ := execDclr_next hx; exact ⟨_, rfl, by simp [MayEmit]⟩
  | dsync =>
    obtain ⟨-, b0, b1, n, -, -, ⟨-, rfl⟩ | ⟨-, rfl⟩⟩ := execDsync_next hx <;> exact ⟨_, rfl, by simp [MayEmit]⟩
  | dcsum => obtain ⟨-, acc, ck, n, ⟨-, rfl⟩ | ⟨-, rfl⟩⟩ := execDcsum_next hx <;> exact ⟨_, rfl, by simp [MayEmit]⟩
  | dang => obtain ⟨-, b3, b2, n, -, -, rfl⟩ := execDang_next hx; exact ⟨_, rfl, by simp [MayEmit]⟩
  | dcab => cases hx
  | dflip => obtain ⟨-, rfl⟩ := execDflip_next hx; exact ⟨_, rfl, by simp [MayEmit]⟩
  | taArm => obtain ⟨-, rfl⟩ := execTaArm_next hx; exact ⟨_, rfl, by simp [MayEmit]⟩
  | taRxb b =>
    obtain ⟨-, rfl⟩ | ⟨-, -, -, rfl⟩ | ⟨-, -, -, rfl⟩ := execTaRxb_next hx <;> exact ⟨_, rfl, by simp [MayEmit]⟩
  | taTx => cases hx; exact ⟨_, rfl, by simp [MayEmit, ownStep]⟩
  | rxcIdle => exact service_emits _ (.inl hx)
  | rxcHsok => exact service_emits _ (.inr (.inl hx))
  | rxcHsbad => exact service_emits _ (.inr (.inr (.inl hx)))
  | rxcFrame => exact service_emits _ (.inr (.inr (.inr (.inl hx))))
  | rxcOvr => exact service_emits _ (.inr (.inr (.inr (.inr hx))))
  | rxc => exact service_emits _ (execRxc_next hx)
  | cmdXscan => cases hx; exact ⟨_, rfl, by simp [MayEmit, ownStep]⟩
  | descOk | descBad | frameSynced | frameUnsynced => cases hr

/-! ## Operations that lose nothing -/

/-- The step adds events to the trace, no loss among them. -/
def EmitsNoLost (s t : State) : Prop := ∃ new, t.trace = s.trace ++ new ∧ ∀ b, .lost b ∉ new

theorem EmitsNoLost.refl (s : State) : EmitsNoLost s s := ⟨[], by simp, by simp⟩

theorem EmitsNoLost.trans {s t u : State} (hst : EmitsNoLost s t) (htu : EmitsNoLost t u) : EmitsNoLost s u := by
  obtain ⟨new, hnew, hno⟩ := hst
  obtain ⟨more, hmore, hno'⟩ := htu
  exact ⟨new ++ more, by rw [hmore, hnew, List.append_assoc], fun b hb =>
    (List.mem_append.1 hb).elim (hno b) (hno' b)⟩

theorem EmitsNoLost.not_mem {s t : State} (h : EmitsNoLost s t) (b : Byte) : .lost b ∉ newEvents s t := by
  obtain ⟨new, hnew, hno⟩ := h
  rw [newEvents_of_append hnew]
  exact hno b

/-- A single operation that receives no byte loses none. -/
theorem exec_emitsNoLost_of_not_received {i : Instr} {s t : State} (hr : isRecord i = false) (hb : received i = [])
    (hx : exec i s = .next t) : EmitsNoLost s t := by
  obtain ⟨new, hnew, hkinds⟩ := exec_emits hr hx
  refine ⟨new, hnew, fun b hmem => ?_⟩
  obtain rfl : i = .taRxb b := hkinds _ hmem
  cases hb

/-- A run of bytes that fits in the armed receive loses none: each but the last leaves the receive armed (R122). -/
theorem landAll_emitsNoLost (bytes : List Byte) : ∀ {s t : State},
    (bytes ≠ [] → s.rxa = true ∧ s.rxcnt.toNat + bytes.length ≤ s.rxlen.toNat) → landAll bytes s = .next t →
    EmitsNoLost s t := by
  induction bytes with
  | nil => intro s t _ hx; cases hx; exact EmitsNoLost.refl s
  | cons b rest ih =>
    intro s t hfit hx
    obtain ⟨ha, hlen⟩ := hfit nofun
    rw [List.length_cons] at hlen
    obtain ⟨u, hu, hx⟩ := andThen_eq_next.1 hx
    obtain ⟨htrace, hrxlen, hcnt, hmore⟩ := execTaRxb_armed ha hu
    have hsucc : (s.rxcnt + 1).toNat = s.rxcnt.toNat + 1 := by bv_omega
    have hline : EmitsNoLost s u := ⟨_, htrace, by simp⟩
    refine hline.trans (ih (fun hne => ?_) hx)
    have hpos := List.length_pos_iff.2 hne
    rw [hcnt, hrxlen, hsucc]
    refine ⟨hmore fun e => ?_, by omega⟩
    rw [e] at hsucc
    omega

theorem serveIfPending_emitsNoLost {s t : State} (hx : serveIfPending s = .next t) : EmitsNoLost s t :=
  serveIfPending_keeps (P := EmitsNoLost s)
    (fun _ _ hu hr => hu.trans (exec_emitsNoLost_of_not_received (i := .rxc) rfl rfl hr)) (EmitsNoLost.refl s) hx

theorem decodeOnce_emitsNoLost {s t : State} (hx : decodeOnce s = .next t) : EmitsNoLost s t :=
  decodeOnce_keeps (P := EmitsNoLost s)
    (fun _ _ hu h => hu.trans (exec_emitsNoLost_of_not_received (i := .dpoll) rfl rfl h))
    (fun _ _ hu h => hu.trans (exec_emitsNoLost_of_not_received (i := .dclr) rfl rfl h))
    (fun _ _ hu h => hu.trans (exec_emitsNoLost_of_not_received (i := .dsync) rfl rfl h))
    (fun _ _ hu h => hu.trans (exec_emitsNoLost_of_not_received (i := .dcsum) rfl rfl h))
    (fun _ _ hu h => hu.trans (exec_emitsNoLost_of_not_received (i := .dang) rfl rfl h))
    (fun _ _ hu h => hu.trans (exec_emitsNoLost_of_not_received (i := .dflip) rfl rfl h))
    (EmitsNoLost.refl s) hx

section Records

variable {bytes : List Byte} {s t : State}
  (hfit : bytes ≠ [] → s.rxa = true ∧ s.rxcnt.toNat + bytes.length ≤ s.rxlen.toNat)
include hfit

theorem receiveDescriptor_emitsNoLost (hx : receiveDescriptor bytes s = .next t) : EmitsNoLost s t := by
  obtain ⟨u, hu, hx⟩ := andThen_eq_next.1 hx
  exact (landAll_emitsNoLost bytes hfit hu).trans (serveIfPending_emitsNoLost hx)

theorem receiveFrame_emitsNoLost (hx : receiveFrame bytes s = .next t) : EmitsNoLost s t := by
  obtain ⟨u, hu, hx⟩ := andThen_eq_next.1 hx
  obtain ⟨v, hv, hx⟩ := andThen_eq_next.1 hx
  exact ((landAll_emitsNoLost bytes hfit hu).trans (serveIfPending_emitsNoLost hv)).trans (decodeOnce_emitsNoLost hx)

end Records

/-- An operation whose bytes fit in the armed receive loses none. -/
theorem exec_emitsNoLost {i : Instr} {s t : State}
    (hfit : received i ≠ [] → s.rxa = true ∧ s.rxcnt.toNat + (received i).length ≤ s.rxlen.toNat)
    (hx : exec i s = .next t) : EmitsNoLost s t := by
  cases i with
  | taRxb b =>
    obtain ⟨ha, -⟩ := hfit nofun
    obtain ⟨htrace, -⟩ := execTaRxb_armed ha hx
    exact ⟨_, htrace, by simp⟩
  | descOk d => exact receiveDescriptor_emitsNoLost hfit hx
  | descBad d => exact receiveDescriptor_emitsNoLost hfit hx
  | frameSynced f => exact receiveFrame_emitsNoLost hfit hx
  | frameUnsynced f => exact receiveFrame_emitsNoLost hfit hx
  | _ => exact exec_emitsNoLost_of_not_received rfl rfl hx

/-! ## Where nothing is armed -/

/-- A started block with nothing armed and nothing pending is stalled after a mismatch or has ended reception (R250). -/
theorem RegInv.stopped_of_unarmed {s : State} (h : RegInv s) (ha : s.rxa = false) (hp : s.rxcPend = false)
    (hl : s.link ≠ .idle) : StallMismatch s ∨ ReceptionOver s := by
  cases hlink : s.link with
  | idle => exact absurd hlink hl
  | streaming => exact .inr ⟨hlink, ha, hp⟩
  | awaiting =>
    refine .inl ⟨hlink, ?_, ha, hp⟩
    by_cases hloop : 2 ≤ s.tph.code.toNat
    · cases hlink.symm.trans (h.loop_streaming hloop)
    · have hni : s.tph ≠ .tIdle := fun hi => hl (h.idle_iff.1 hi)
      cases htph : s.tph with
      | tWait => rfl
      | tIdle => exact absurd htph hni
      | _ => exact absurd (by rw [htph]; decide) hloop

end Sys2Proof.Safety
end

section
namespace Sys2Proof.Proofs

open Sys2Proof.Machine Sys2Proof.Safety

/-- Settles O15: the run that fits lands in the pool from RXBASE on, since the receive is empty. -/
theorem wholeFrameLandsInOrder : Obligations.WholeFrameLandsInOrder := by
  intro s f ha hsp hcnt hpend hpos hfit hin
  have hzero : s.rxcnt.toNat = 0 := by rw [hcnt]; rfl
  obtain ⟨shadow, hrun⟩ := landAll_lands_pool f ha hsp hin (by omega) (by omega)
  have hpool : (s.withPoolRun f shadow).pool = storeRun s.pool s.rxbase.toNat f := by
    rw [State.withPoolRun, hzero]
    rfl
  refine ⟨_, (runInstrs_taRxb f s).trans hrun, fun k hk => ?_, fun a hout => ?_, fun hfull => ?_, fun hpart => ?_, rfl⟩
  · rw [hpool, read_storeRun f _ _ hk]
  · rw [hpool]
    exact hout.elim (read_storeRun_before f _) (read_storeRun_after f _)
  · have hlast : s.rxcnt.toNat + f.length = s.rxlen.toNat := by omega
    exact ⟨if_pos hlast, if_pos hlast⟩
  · have hmore : s.rxcnt.toNat + f.length ≠ s.rxlen.toNat := by omega
    have hcount : (s.rxcnt + BitVec.ofNat 7 f.length).toNat = f.length := by
      have hlt := s.rxlen.isLt
      rw [BitVec.toNat_add, BitVec.toNat_ofNat, hzero]
      omega
    exact ⟨(if_neg hmore).trans ha, (if_neg hmore).trans hpend, hcount⟩

/-- Settles O43: all four rows are the two receptions, and each part of them runs from the invariant. -/
theorem recordsCompleteInEverySafeState : Obligations.RecordsCompleteInEverySafeState := by
  intro s r h
  have hdesc := receiveDescriptor_runs h r
  have hframe := receiveFrame_runs h r
  exact ⟨hdesc, hdesc, hframe, hframe⟩

/-- Settles O56: under P2 the bytes fit in an armed receive, so a loss finds nothing armed, and under P3 the block has
been started. -/
theorem promptServiceLosesNoByte : Obligations.PromptServiceLosesNoByte := by
  intro x i s t b h hp2 hp3 hx hlost
  have hbytes : received i ≠ [] := fun hnone =>
    (exec_emitsNoLost (fun hne => absurd hnone hne) hx).not_mem b hlost
  obtain ⟨hpend, hfits⟩ := hp2 hbytes
  obtain ⟨-, hstarted⟩ := hp3
  have hunarmed : s.rxa = false := Bool.eq_false_of_not_eq_true fun ha =>
    (exec_emitsNoLost (fun _ => ⟨ha, hfits ha⟩) hx).not_mem b hlost
  exact h.regs.stopped_of_unarmed hunarmed hpend (hstarted hbytes)

/-- Settles O11: the two cases of the request. -/
theorem armRequest : Obligations.ArmRequest := by
  intro s space base len
  exact ⟨fun ha => armReceive_unarmed ha space base len, fun ha => armReceive_armed ha space base len⟩

/-- Settles O12: the two spaces, each by the state that the byte's landing leaves. -/
theorem receivedByteLands : Obligations.ReceivedByteLands := by
  intro s b ha hin
  have hspace : s.rxsp = .pool ∨ s.rxsp = .desc := by cases s.rxsp <;> simp
  rcases hspace with hsp | hsp
  · have hoff : adapterOffset s = s.rxbase.toNat + s.rxcnt.toNat := by rw [adapterOffset, hsp]
    rw [hoff] at hin ⊢
    have hx := execTaRxb_pool b ha hsp (by rwa [hsp] at hin)
    rw [advanceReceive_eq] at hx
    have htears := tears_iff s (s.rxbase.toNat + s.rxcnt.toNat)
    refine ⟨_, hx, rfl, fun h => if_pos ?_, fun h => if_neg ?_, fun h => ?_, fun h => ?_, fun _ => ?_,
      fun h => nomatch hsp.symm.trans h⟩
    · obtain ⟨hph, -, hrange⟩ := h
      exact htears.2 ⟨hph, hrange⟩
    · intro ht
      obtain ⟨hph, hrange⟩ := htears.1 ht
      exact h ⟨hph, hsp, hrange⟩
    · exact ⟨if_pos h, if_pos h⟩
    · exact ⟨(if_neg h).trans ha, if_neg h⟩
    · exact ⟨Memory.read_write_same _ _ b, rfl, fun a hne => Memory.read_write_other _ b hne⟩
  · have hoff : adapterOffset s = s.rxcnt.toNat := by rw [adapterOffset, hsp]
    rw [hoff] at hin ⊢
    have hx := execTaRxb_desc b ha hsp (by rwa [hsp] at hin)
    rw [advanceReceive_eq] at hx
    refine ⟨_, hx, rfl, fun h => ?_, fun _ => rfl, fun h => ?_, fun h => ?_, fun h => (nomatch hsp.symm.trans h),
      fun _ => ?_⟩
    · obtain ⟨-, hpool, -⟩ := h
      cases hsp.symm.trans hpool
    · exact ⟨if_pos h, if_pos h⟩
    · exact ⟨(if_neg h).trans ha, if_neg h⟩
    · exact ⟨Memory.read_write_same _ _ b, rfl, fun a hne => Memory.read_write_other _ b hne⟩

/-- Settles O14: the byte's line and its loss are all that the step leaves. -/
theorem unarmedByteIsLost : Obligations.UnarmedByteIsLost := by
  intro s b ha
  exact execTaRxb_unarmed b ha

/-- Settles O16: neither send reads or writes anything but the trace. -/
theorem sendRequest : Obligations.SendRequest := by
  intro s
  exact ⟨fun _ => rfl, rfl⟩

end Sys2Proof.Proofs
end

section
/-! SUPPORT. What a record keeps (R99), the events that a step appends (R102), and the link (R140) and the stall after a
mismatch (R145, R250(c)) in one step. -/

namespace Sys2Proof.Safety

open Sys2Proof.Machine

/-! ## Records as runs of single operations -/

/-- What every single operation of XRX's own but RESET and START keeps, a record keeps. -/
theorem exec_record_keeps {P : State → Prop}
    (hstep : ∀ j u v, isRecord j = false → ownStep j = true → j ≠ .reset → j ≠ .start → P u → exec j u = .next v → P v)
    {i : Instr} {s t : State} (hr : isRecord i = true) (hs : P s) (hx : exec i s = .next t) : P t := by
  have hb : ∀ b u v, P u → execTaRxb b u = .next v → P v := fun b u v => hstep (.taRxb b) u v rfl rfl nofun nofun
  have hserve : ∀ u v, P u → execRxc u = .next v → P v := fun u v => hstep .rxc u v rfl rfl nofun nofun
  have hframe : ∀ f, receiveFrame f s = .next t → P t := fun _ =>
    receiveFrame_keeps hb hserve
      (fun u v => hstep .dpoll u v rfl rfl nofun nofun) (fun u v => hstep .dclr u v rfl rfl nofun nofun)
      (fun u v => hstep .dsync u v rfl rfl nofun nofun) (fun u v => hstep .dcsum u v rfl rfl nofun nofun)
      (fun u v => hstep .dang u v rfl rfl nofun nofun) (fun u v => hstep .dflip u v rfl rfl nofun nofun) hs
  cases i with
  | descOk | descBad => exact receiveDescriptor_keeps hb hserve hs hx
  | frameSynced f | frameUnsynced f => exact hframe f hx
  | _ => cases hr

/-! ## The events of a step -/

/-- The step adds events to the trace, each of which is a `Q`. -/
def Appends (Q : Event → Prop) (s t : State) : Prop := ∃ new, t.trace = s.trace ++ new ∧ ∀ e ∈ new, Q e

theorem Appends.refl (Q : Event → Prop) (s : State) : Appends Q s s := ⟨[], by simp, by simp⟩

theorem Appends.mono {Q R : Event → Prop} {s t : State} (h : Appends Q s t) (hQR : ∀ e, Q e → R e) : Appends R s t := by
  obtain ⟨new, hnew, hQ⟩ := h
  exact ⟨new, hnew, fun e he => hQR e (hQ e he)⟩

theorem Appends.trans {Q : Event → Prop} {s t u : State} (hst : Appends Q s t) (htu : Appends Q t u) :
    Appends Q s u := by
  obtain ⟨new, hnew, hQ⟩ := hst
  obtain ⟨more, hmore, hQ'⟩ := htu
  exact ⟨new ++ more, by rw [hmore, hnew, List.append_assoc], fun e he => (List.mem_append.1 he).elim (hQ e) (hQ' e)⟩

/-- The event sends nothing but the command, and that only as part of START (R141). -/
def SendsOnlyInStart (i : Instr) (e : Event) : Prop := ∀ bytes, e = .tx bytes → i = .start ∧ bytes = Config.cmdBytes

theorem MayEmit.sendsOnlyInStart {i : Instr} {e : Event} (ho : ownStep i = true) (he : MayEmit i e) :
    SendsOnlyInStart i e := by
  rintro bytes rfl
  exact he ho

/-- A step of XRX's own sends only in START: a record is made of operations that are not START. -/
theorem exec_sendsOnlyInStart {i : Instr} {s t : State} (ho : ownStep i = true) (hx : exec i s = .next t) :
    Appends (SendsOnlyInStart i) s t := by
  cases hr : isRecord i with
  | false => exact Appends.mono (exec_emits hr hx) fun _ => MayEmit.sendsOnlyInStart ho
  | true =>
    refine exec_record_keeps (P := Appends (SendsOnlyInStart i) s) ?_ hr (Appends.refl _ s) hx
    intro j u v hjr hjo _ hjs hu hv
    refine hu.trans (Appends.mono (exec_emits hjr hv) fun e he bytes hb => ?_)
    obtain ⟨hstart, -⟩ := he.sendsOnlyInStart hjo bytes hb
    exact absurd hstart hjs

/-! ## The link in one step (R140) -/

/-- The link stays, or goes to Streaming from where the descriptor is awaited. -/
def LinkStaysOrStreams (s t : State) : Prop := t.link = s.link ∨ (s.link = .awaiting ∧ t.link = .streaming)

theorem LinkStaysOrStreams.trans {s t u : State} (hst : LinkStaysOrStreams s t) (htu : LinkStaysOrStreams t u) :
    LinkStaysOrStreams s u := by
  rcases htu with hsame | ⟨hawait, hstream⟩
  · rwa [LinkStaysOrStreams, hsame]
  · rcases hst with hst | ⟨-, hst⟩
    · exact .inr ⟨hst.symm.trans hawait, hstream⟩
    · cases hst.symm.trans hawait

theorem execRxc_link {s t : State} (hx : execRxc s = .next t) : LinkStaysOrStreams s t := by
  rcases execRxc_next hx with hx | hx | hx | hx | hx
  · obtain ⟨-, -, rfl⟩ := execRxcIdle_next hx; exact .inl rfl
  · obtain ⟨-, hl, -, -, rfl⟩ := execRxcHsok_next hx; exact .inr ⟨hl, rfl⟩
  · obtain ⟨-, -, b, -, -, rfl⟩ := execRxcHsbad_next hx; exact .inl rfl
  · obtain ⟨-, -, -, -, rfl⟩ := execRxcFrame_next hx; exact .inl rfl
  · obtain ⟨-, -, -, ⟨-, rfl⟩ | ⟨-, -, rfl⟩⟩ := execRxcOvr_next hx <;> exact .inl rfl

/-- A single operation other than RESET and START leaves the link, or is the service of a matching descriptor. -/
theorem exec_link {i : Instr} {s t : State} (hr : isRecord i = false) (hreset : i ≠ .reset) (hstart : i ≠ .start)
    (hx : exec i s = .next t) :
    t.link = s.link ∨ (s.link = .awaiting ∧ t.link = .streaming ∧ (i = .rxcHsok ∨ i = .rxc)) := by
  by_cases hok : i = .rxcHsok
  · subst hok
    obtain ⟨-, hl, -, -, rfl⟩ := execRxcHsok_next hx
    exact .inr ⟨hl, rfl, .inl rfl⟩
  by_cases hrxc : i = .rxc
  · subst hrxc
    rcases execRxc_link hx with hl | ⟨hl, hl'⟩
    · exact .inl hl
    · exact .inr ⟨hl, hl', .inr rfl⟩
  obtain ⟨-, hlink, -⟩ := Proofs.registersAreWrittenOnlyByTheirOperations i s t hr hreset hx
  exact .inl (hlink (by simp [hstart, hok, hrxc]))

/-- A record is made of such operations. -/
theorem exec_record_link {i : Instr} {s t : State} (hr : isRecord i = true) (hx : exec i s = .next t) :
    LinkStaysOrStreams s t := by
  refine exec_record_keeps (P := LinkStaysOrStreams s) ?_ hr (.inl rfl) hx
  intro j u v hjr _ hreset hstart hu hv
  exact hu.trans ((exec_link hjr hreset hstart hv).imp_right fun ⟨hawait, hstream, _⟩ => ⟨hawait, hstream⟩)

/-! ## The answer to the descriptor (R144, R145) -/

/-- The guard that RXC.HSOK and RXC.HSBAD share (R144, R145): once it is met, the byte at DESC[6] decides. -/
theorem awaiting_guard_withEcho {s : State} (hp : s.rxcPend = true) (hl : s.link = .awaiting) {echo : Byte}
    (he : Memory.read s.desc 6 = some echo) (k : Byte → Result) (r : Result) :
    (if s.rxcPend ∧ s.link = .awaiting then withEcho s k else r) = k echo := by
  rw [if_pos ⟨hp, hl⟩, withEcho_some he]

/-! ## The stall after a mismatch (R250(c)) -/

/-- The two operations that a block stalled by a mismatch still runs: its poll, and a byte that finds nothing armed. -/
theorem StallMismatch.enabled_cases {i : Instr} {s : State} (h : StallMismatch s) (hr : isRecord i = false)
    (ho : ownStep i = true) (hreset : i ≠ .reset) (he : enabled s i = true) : i = .waits ∨ ∃ b, i = .taRxb b := by
  obtain ⟨-, htph, -, hpend⟩ := h
  cases i with
  | waits => exact .inl rfl
  | taRxb b => exact .inr ⟨b, rfl⟩
  | reset => exact absurd rfl hreset
  | start | dpoll | dclr | dsync | dcsum | dang | dcab | dflip => simp [enabled, htph] at he
  | rxcIdle | rxcHsok | rxcHsbad | rxcFrame | rxcOvr | rxc => simp [enabled, hpend] at he
  | taArm | taTx | cmdXscan => cases ho
  | descOk | descBad | frameSynced | frameUnsynced => cases hr

/-- Only the trace may differ. -/
def SameButTrace (s t : State) : Prop := t = { s with trace := t.trace }

theorem SameButTrace.refl (s : State) : SameButTrace s s := rfl

theorem SameButTrace.trans {s t u : State} (hst : SameButTrace s t) (htu : SameButTrace t u) : SameButTrace s u := by
  rw [SameButTrace] at hst htu ⊢
  rw [htu, hst]

theorem SameButTrace.sameService {s t : State} (h : SameButTrace s t) : SameService s t := by
  rw [h]
  exact ⟨rfl, rfl, rfl, rfl, rfl, rfl, rfl, rfl, rfl, rfl, rfl, rfl⟩

theorem SameButTrace.stallMismatch {s t : State} (h : SameButTrace s t) (hs : StallMismatch s) : StallMismatch t := by
  rw [h]
  exact hs

/-- A single operation but RESET leaves a block stalled by a mismatch as it is. -/
theorem StallMismatch.single_sameButTrace {i : Instr} {s t : State} (h : StallMismatch s) (hr : isRecord i = false)
    (ho : ownStep i = true) (hreset : i ≠ .reset) (hx : exec i s = .next t) : SameButTrace s t := by
  have hcases := h.enabled_cases hr ho hreset (enabled_of_exec_next hx)
  obtain ⟨hl, htph, ha, -⟩ := h
  rcases hcases with rfl | ⟨b, rfl⟩
  · obtain ⟨-, rfl⟩ := execWaits_next hx
    simp [SameButTrace, hl, htph]
  · cases (execTaRxb_unarmed b ha).symm.trans hx
    rfl

/-- Every step of XRX's own but RESET leaves it so, a record among them, since its operations are such ones. -/
theorem StallMismatch.sameButTrace {i : Instr} {s t : State} (h : StallMismatch s) (ho : ownStep i = true)
    (hreset : i ≠ .reset) (hx : exec i s = .next t) : SameButTrace s t := by
  cases hr : isRecord i with
  | false => exact h.single_sameButTrace hr ho hreset hx
  | true =>
    refine exec_record_keeps (P := SameButTrace s) ?_ hr (.refl s) hx
    intro j u v hjr hjo hjreset _ hu hv
    exact hu.trans ((hu.stallMismatch h).single_sameButTrace hjr hjo hjreset hv)

/-- RXC.HSBAD ends in the stall: the invariant gives the phase, and that nothing was armed. -/
theorem execRxcHsbad_stalls {s t : State} (h : BlockInv s) (hx : execRxcHsbad s = .next t) : StallMismatch t := by
  have ht := execRxcHsbad_keeps h hx
  obtain ⟨hp, hl, b, -, -, rfl⟩ := execRxcHsbad_next hx
  rcases ht.regs.stopped_of_unarmed (h.regs.unarmed_of_pending hp) rfl (by simp [hl]) with hstall | ⟨hstream, -⟩
  · exact hstall
  · cases hl.symm.trans hstream

end Sys2Proof.Safety
end

section
namespace Sys2Proof.Proofs

open Sys2Proof.Machine Sys2Proof.Safety

/-- Settles O17: the events of a single operation are of its own kinds, and no part of a record is START. -/
theorem onlyTheCommandIsSent : Obligations.OnlyTheCommandIsSent := by
  intro i s t ho hx
  obtain ⟨new, hnew, hsends⟩ := exec_sendsOnlyInStart ho hx
  exact ⟨new, hnew, fun bytes hmem => hsends _ hmem bytes rfl⟩

/-- Settles O23: START runs in T_IDLE only, which is Idle by the invariant; after it only a matching descriptor moves
the link. -/
theorem linkMovesAlongOnePath : Obligations.LinkMovesAlongOnePath := by
  intro i s t h hx
  by_cases hreset : i = .reset
  · subst hreset
    cases hx
    exact .inr (.inl ⟨rfl, rfl⟩)
  by_cases hstart : i = .start
  · subst hstart
    obtain ⟨htph, -, rfl⟩ := execStart_next hx
    exact .inr (.inr (.inl ⟨h.idle_iff.1 htph, rfl, rfl⟩))
  cases hr : isRecord i with
  | false =>
    rcases exec_link hr hreset hstart hx with hsame | ⟨hawait, hstream, hserves⟩
    · exact .inl hsame
    · exact .inr (.inr (.inr ⟨hawait, hstream, hserves.imp id .inl⟩))
  | true =>
    rcases exec_record_link hr hx with hsame | ⟨hawait, hstream⟩
    · exact .inl hsame
    · exact .inr (.inr (.inr ⟨hawait, hstream, .inr (.inr rfl)⟩))

/-- Settles O53: RXC.HSBAD enters the stall, in which a step of XRX's own but RESET changes only the trace. -/
theorem handshakeMismatchStallsForEver : Obligations.HandshakeMismatchStallsForEver := by
  intro i s t
  refine ⟨execRxcHsbad_stalls, fun h ho hreset hx => ?_⟩
  have hsame := h.sameButTrace ho hreset hx
  exact ⟨hsame.stallMismatch h, hsame.sameService⟩

/-- Settles O18: the phase guards the step, and the request inside it decides whether it completes. -/
theorem startSendsAndArms : Obligations.StartSendsAndArms := by
  intro s
  refine ⟨fun htph ha => (if_pos htph).trans ?_, fun htph ha => (if_pos htph).trans ?_, fun htph => if_neg htph⟩
  · rw [armReceive_unarmed (by exact ha), andThen_next]
    simp [State.log, State.emit, sendBytes, Config.cmdBytes]
  · rw [armReceive_armed (by exact ha), andThen_refused]

/-- Settles O19: the phase guards the step, and the link decides the next phase. -/
theorem waitsPollsTheLink : Obligations.WaitsPollsTheLink := by
  intro s
  exact ⟨fun htph hl => (if_pos htph).trans (if_pos hl), fun htph hl => (if_pos htph).trans (if_neg hl),
    fun htph => if_neg htph⟩

/-- Settles O20: the invariant has no notification in Idle, so there the refusal applies. -/
theorem idleCompletionOnlyClears : Obligations.IdleCompletionOnlyClears := by
  intro s
  refine ⟨fun hp hl => if_pos ⟨hp, hl⟩, fun hno => if_neg hno, fun h => if_neg ?_⟩
  rintro ⟨hp, hl⟩
  exact h.pending_started hp hl

/-- Settles O21: with the echo in place the request decides RXC.HSOK, and RXC.HSBAD's own test fails. -/
theorem matchingDescriptorStartsStreaming : Obligations.MatchingDescriptorStartsStreaming := by
  refine ⟨fun s hno => if_neg hno, fun s hp hl he => ⟨fun ha => execRxcHsok_matching hp hl ha he, fun ha => ?_, ?_⟩⟩
  · exact (awaiting_guard_withEcho hp hl he _ _).trans ((if_pos rfl).trans (armReceive_armed (by exact ha) _ _ _))
  · exact (awaiting_guard_withEcho hp hl he _ _).trans (if_pos rfl)

/-- Settles O22: with another echo RXC.HSBAD drops it, and RXC.HSOK's own test fails. -/
theorem wrongDescriptorIsDropped : Obligations.WrongDescriptorIsDropped := by
  refine ⟨fun s hno => if_neg hno, fun s b hp hl he hne => ⟨execRxcHsbad_mismatching hp hl he hne, ?_⟩⟩
  exact (awaiting_guard_withEcho hp hl he _ _).trans (if_neg hne)

end Sys2Proof.Proofs
end

section
/-! SUPPORT. The counts of RXC.FRAME, DCLR and DFLIP since reset in one step, and the relation of R163 between them and
WIDX, RIDX, READY and the phase (42_reception_pipeline.md section 3). -/

namespace Sys2Proof.Safety

open Sys2Proof.Machine

/-! ## Counting lines -/

/-- The event is a line that R163 does not count, or no line. -/
def Uncounted (e : Event) : Prop := ∀ i, e = .line i → i ≠ .reset ∧ i ≠ .rxcFrame ∧ i ≠ .dclr ∧ i ≠ .dflip

/-- A line counts for its own operation, and RESET starts the count again. -/
theorem countSince_append_line (op i : Instr) (tr : List Event) :
    countSince op (tr ++ [.line i]) =
      if i = .reset then 0 else if i = op then countSince op tr + 1 else countSince op tr := by
  rw [countSince, List.foldl_append]
  rfl

/-- Other lines than the counted one and RESET count nothing, and so do events that are no lines. -/
theorem countSince_append_of_not_counted (op : Instr) (new : List Event) : ∀ (tr : List Event),
    (∀ e ∈ new, ∀ i, e = .line i → i ≠ .reset ∧ i ≠ op) → countSince op (tr ++ new) = countSince op tr := by
  induction new with
  | nil => intro tr _; rw [List.append_nil]
  | cons e rest ih =>
    intro tr h
    obtain ⟨he, hrest⟩ := List.forall_mem_cons.1 h
    rw [List.append_cons, ih _ hrest]
    cases e with
    | line i =>
      obtain ⟨hreset, hop⟩ := he i rfl
      rw [countSince_append_line, if_neg hreset, if_neg hop]
    | _ => rw [countSince, List.foldl_append]; rfl

/-- An operation other than RESET adds its line and then what is no line: it adds 1 to its own count (R163). -/
theorem counts_of_step {s t : State} {i : Instr} {more : List Event} (htrace : t.trace = s.trace ++ .line i :: more)
    (hmore : ∀ e ∈ more, ∀ j, e ≠ .line j) (hi : i ≠ .reset) :
    (nW t = if i = .rxcFrame then nW s + 1 else nW s) ∧ (nC t = if i = .dclr then nC s + 1 else nC s) ∧
      (nR t = if i = .dflip then nR s + 1 else nR s) := by
  have hcount (op : Instr) :
      countSince op t.trace = if i = op then countSince op s.trace + 1 else countSince op s.trace := by
    rw [htrace, List.append_cons, countSince_append_of_not_counted op more _ fun e he j hj => absurd hj (hmore e he j),
      countSince_append_line, if_neg hi]
  exact ⟨hcount _, hcount _, hcount _⟩

/-! ## The relation with what a clear relies on -/

/-- R163, with READY at the clear (R182): what every single operation keeps. -/
structure InStep (s : State) : Prop where
  lock        : LockStep s
  clear_ready : s.tph = .dClr → s.ready = true

/-- A legal offset follows the parity of a count when both step (R163). -/
theorem flipOffset_parity {x : BitVec 8} {n : Nat} (h : x.toNat = 84 * (n % 2)) :
    (flipOffset x).toNat = 84 * ((n + 1) % 2) := by
  rw [flipOffset, BitVec.toNat_sub, h]
  rcases Nat.mod_two_eq_zero_or_one n with hn | hn
  · rw [hn, Nat.succ_mod_two_eq_one_iff.2 hn]; rfl
  · rw [hn, Nat.succ_mod_two_eq_zero_iff.2 hn]; rfl

/-- A step that touches neither offset nor the signal, opens or closes no decode and runs no counted line. -/
theorem InStep.uncounted {s t : State} (h : InStep s) (hw : t.widx = s.widx) (hr : t.ridx = s.ridx)
    (hready : t.ready = s.ready) (hopen : decodeOpen t = decodeOpen s) (hclear : t.tph = .dClr → s.ready = true)
    (htrace : Appends Uncounted s t) : InStep t := by
  obtain ⟨new, hnew, hun⟩ := htrace
  have hcount {op : Instr} (hop : op = .rxcFrame ∨ op = .dclr ∨ op = .dflip) :
      countSince op t.trace = countSince op s.trace := by
    rw [hnew]
    refine countSince_append_of_not_counted op new _ fun e he i hi => ?_
    obtain ⟨hreset, hframe, hdclr, hdflip⟩ := hun e he i hi
    refine ⟨hreset, ?_⟩
    rcases hop with rfl | rfl | rfl <;> assumption
  have hW : nW t = nW s := hcount (.inl rfl)
  have hC : nC t = nC s := hcount (.inr (.inl rfl))
  have hR : nR t = nR s := hcount (.inr (.inr rfl))
  refine ⟨?_, fun hp => hready.trans (hclear hp)⟩
  obtain ⟨hwidx, hridx, hlow, hup, hoi, hhlow, hhup, hre⟩ := h.lock
  constructor <;> simpa only [hW, hC, hR, hw, hr, hready, hopen]

/-- The same where the phase stays. -/
theorem InStep.samePhase {s t : State} (h : InStep s) (hw : t.widx = s.widx) (hr : t.ridx = s.ridx)
    (hready : t.ready = s.ready) (hp : t.tph = s.tph) (htrace : Appends Uncounted s t) : InStep t :=
  h.uncounted hw hr hready (decodeOpen_of_tph hp) (fun hc => h.clear_ready (hp ▸ hc)) htrace

/-- The same where the task moves, to another phase than the clear. -/
theorem InStep.movesPhase {s t : State} (h : InStep s) {p q : Phase} (hp : s.tph = p) (hq : t.tph = q)
    (hpq : (p.reads || decide (p = .dFlip)) = (q.reads || decide (q = .dFlip))) (hclear : q ≠ .dClr)
    (hw : t.widx = s.widx) (hr : t.ridx = s.ridx) (hready : t.ready = s.ready) (htrace : Appends Uncounted s t) :
    InStep t :=
  h.uncounted hw hr hready (((decodeOpen_of_tph hq).trans hpq.symm).trans (decodeOpen_of_tph hp).symm)
    (fun hc => absurd (hq.symm.trans hc) hclear) htrace

/-! ## The three counted operations -/

/-- A frame is handed over where READY is 0, that is where nW = nC (R161). -/
theorem execRxcFrame_inStep {s t : State} (h : InStep s) (hx : execRxcFrame s = .next t) : InStep t := by
  obtain ⟨-, -, hready, -, ht⟩ := execRxcFrame_next hx
  obtain ⟨hwidx, hridx, hlow, hup, hopen, hhlow, hhup, hre⟩ := h.lock
  obtain ⟨hW, hC, hR⟩ : nW t = nW s + 1 ∧ nC t = nC s ∧ nR t = nR s :=
    counts_of_step (i := .rxcFrame) (congrArg State.trace ht) (by simp) nofun
  subst ht
  rw [hready, Bool.toNat_false] at hre
  exact ⟨{ widx_parity := hW ▸ flipOffset_parity hwidx
           ridx_parity := hR ▸ hridx
           taken_lower := by omega
           taken_upper := by omega
           open_iff := hC ▸ hR ▸ hopen
           handed_lower := by omega
           handed_upper := by omega
           ready_eq := by rw [Bool.toNat_true]; omega }, fun _ => rfl⟩

/-- The frame is taken where READY is 1, that is where nW = nC + 1, and the decode opens (R182). -/
theorem execDclr_inStep {s t : State} (h : InStep s) (hx : execDclr s = .next t) : InStep t := by
  obtain ⟨hp, ht⟩ := execDclr_next hx
  obtain ⟨hwidx, hridx, hlow, hup, hopen, hhlow, hhup, hre⟩ := h.lock
  obtain ⟨hW, hC, hR⟩ : nW t = nW s ∧ nC t = nC s + 1 ∧ nR t = nR s :=
    counts_of_step (i := .dclr) (more := []) (congrArg State.trace ht) (by simp) nofun
  subst ht
  rw [h.clear_ready hp, Bool.toNat_true] at hre
  have hclosed : nC s ≠ nR s + 1 := fun he => nomatch (decodeOpen_of_tph hp).symm.trans (hopen.2 he)
  exact ⟨{ widx_parity := hW ▸ hwidx
           ridx_parity := hR ▸ hridx
           taken_lower := by omega
           taken_upper := by omega
           open_iff := iff_of_true rfl (by omega)
           handed_lower := by omega
           handed_upper := by omega
           ready_eq := by rw [Bool.toNat_false]; omega }, nofun⟩

/-- The decode closes, and the read side takes the other offset (R187). -/
theorem execDflip_inStep {s t : State} (h : InStep s) (hx : execDflip s = .next t) : InStep t := by
  obtain ⟨hp, ht⟩ := execDflip_next hx
  obtain ⟨hwidx, hridx, hlow, hup, hopen, hhlow, hhup, hre⟩ := h.lock
  obtain ⟨hW, hC, hR⟩ : nW t = nW s ∧ nC t = nC s ∧ nR t = nR s + 1 :=
    counts_of_step (i := .dflip) (more := []) (congrArg State.trace ht) (by simp) nofun
  subst ht
  have htaken : nC s = nR s + 1 := hopen.1 (decodeOpen_of_tph hp)
  exact ⟨{ widx_parity := hW ▸ hwidx
           ridx_parity := hR ▸ flipOffset_parity hridx
           taken_lower := by omega
           taken_upper := by omega
           open_iff := iff_of_false nofun (by omega)
           handed_lower := by omega
           handed_upper := by omega
           ready_eq := by rw [hW, hC]; exact hre }, nofun⟩

/-! ## Every operation -/

/-- RESET starts the counts and the offsets again (R240). -/
theorem execReset_inStep {s t : State} (hx : execReset s = .next t) : InStep t := by
  cases hx
  have hcount (op : Instr) : countSince op (s.trace ++ [.line .reset]) = 0 := countSince_append_line op .reset s.trace
  refine ⟨?_, nofun⟩
  constructor <;> simp [nW, nC, nR, hcount, decodeOpen, Phase.reads]

/-- Of the five variants of RXC one hands a frame over, and the others run a line that is not counted. -/
theorem service_inStep {s t : State} (h : InStep s)
    (hx : execRxcIdle s = .next t ∨ execRxcHsok s = .next t ∨ execRxcHsbad s = .next t ∨ execRxcFrame s = .next t ∨
      execRxcOvr s = .next t) : InStep t := by
  rcases hx with hx | hx | hx | hx | hx
  · obtain ⟨-, -, rfl⟩ := execRxcIdle_next hx; exact h.samePhase rfl rfl rfl rfl ⟨_, rfl, by simp [Uncounted]⟩
  · obtain ⟨-, -, -, -, rfl⟩ := execRxcHsok_next hx; exact h.samePhase rfl rfl rfl rfl ⟨_, rfl, by simp [Uncounted]⟩
  · obtain ⟨-, -, b, -, -, rfl⟩ := execRxcHsbad_next hx; exact h.samePhase rfl rfl rfl rfl ⟨_, rfl, by simp [Uncounted]⟩
  · exact execRxcFrame_inStep h hx
  · obtain ⟨-, -, -, ⟨-, rfl⟩ | ⟨-, -, rfl⟩⟩ := execRxcOvr_next hx <;>
      exact h.samePhase rfl rfl rfl rfl ⟨_, rfl, by simp [Uncounted]⟩

theorem execWaits_inStep {s t : State} (h : InStep s) (hx : execWaits s = .next t) : InStep t := by
  obtain ⟨hp, rfl⟩ := execWaits_next hx
  split
  · exact h.movesPhase (q := .dPoll) hp rfl rfl nofun rfl rfl rfl ⟨_, rfl, by simp [Uncounted]⟩
  · exact h.movesPhase (q := .tWait) hp rfl rfl nofun rfl rfl rfl ⟨_, rfl, by simp [Uncounted]⟩

/-- The poll goes to the clear where READY is 1 (R181). -/
theorem execDpoll_inStep {s t : State} (h : InStep s) (hx : execDpoll s = .next t) : InStep t := by
  obtain ⟨hp, rfl⟩ := execDpoll_next hx
  split
  · rename_i hready
    exact h.uncounted rfl rfl rfl (decodeOpen_of_tph hp).symm (fun _ => hready) ⟨_, rfl, by simp [Uncounted]⟩
  · exact h.movesPhase (q := .dPoll) hp rfl rfl nofun rfl rfl rfl ⟨_, rfl, by simp [Uncounted]⟩

/-- Every single operation keeps the relation. -/
theorem exec_single_inStep {i : Instr} {s t : State} (hr : isRecord i = false) (h : InStep s)
    (hx : exec i s = .next t) : InStep t := by
  cases i with
  | reset => exact execReset_inStep hx
  | start =>
    obtain ⟨hp, -, rfl⟩ := execStart_next hx
    exact h.movesPhase (q := .tWait) hp rfl rfl nofun rfl rfl rfl ⟨_, rfl, by simp [Uncounted]⟩
  | waits => exact execWaits_inStep h hx
  | dpoll => exact execDpoll_inStep h hx
  | dclr => exact execDclr_inStep h hx
  | dsync =>
    obtain ⟨hp, b0, b1, n, -, -, ⟨-, rfl⟩ | ⟨-, rfl⟩⟩ := execDsync_next hx
    · exact h.movesPhase (q := .dCsum) hp rfl rfl nofun rfl rfl rfl ⟨_, rfl, by simp [Uncounted]⟩
    · exact h.movesPhase (q := .dFlip) hp rfl rfl nofun rfl rfl rfl ⟨_, rfl, by simp [Uncounted]⟩
  | dcsum =>
    obtain ⟨hp, acc, ck, n, ⟨-, rfl⟩ | ⟨-, rfl⟩⟩ := execDcsum_next hx
    · exact h.movesPhase (q := .dAng) hp rfl rfl nofun rfl rfl rfl ⟨_, rfl, by simp [Uncounted]⟩
    · exact h.movesPhase (q := .dFlip) hp rfl rfl nofun rfl rfl rfl ⟨_, rfl, by simp [Uncounted]⟩
  | dang =>
    obtain ⟨hp, b3, b2, n, -, -, rfl⟩ := execDang_next hx
    exact h.movesPhase (q := .dFlip) hp rfl rfl nofun rfl rfl rfl ⟨_, rfl, by simp [Uncounted]⟩
  | dcab => cases hx
  | dflip => exact execDflip_inStep h hx
  | taArm => obtain ⟨-, rfl⟩ := execTaArm_next hx; exact h.samePhase rfl rfl rfl rfl ⟨_, rfl, by simp [Uncounted]⟩
  | taRxb b =>
    obtain ⟨-, rfl⟩ | ⟨-, -, -, rfl⟩ | ⟨-, -, -, rfl⟩ := execTaRxb_next hx <;>
      exact h.samePhase rfl rfl rfl rfl ⟨_, rfl, by simp [Uncounted]⟩
  | taTx | cmdXscan => cases hx; exact h.samePhase rfl rfl rfl rfl ⟨_, rfl, by simp [Uncounted]⟩
  | rxcIdle => exact service_inStep h (.inl hx)
  | rxcHsok => exact service_inStep h (.inr (.inl hx))
  | rxcHsbad => exact service_inStep h (.inr (.inr (.inl hx)))
  | rxcFrame => exact execRxcFrame_inStep h hx
  | rxcOvr => exact service_inStep h (.inr (.inr (.inr (.inr hx))))
  | rxc => exact service_inStep h (execRxc_next hx)
  | descOk | descBad | frameSynced | frameUnsynced => cases hr

/-- Every instruction keeps the relation: a record is made of single operations. -/
theorem exec_inStep {i : Instr} {s t : State} (h : InStep s) (hx : exec i s = .next t) : InStep t := by
  cases hr : isRecord i with
  | false => exact exec_single_inStep hr h hx
  | true => exact exec_record_keeps (fun _ _ _ hjr _ _ _ => exec_single_inStep hjr) hr h hx

/-- No part of the relation speaks of the script. -/
theorem InStep.setScript {s : State} (h : InStep s) (script : List Chunk) : InStep { s with script := script } :=
  ⟨{ h.lock with }, h.clear_ready⟩

end Sys2Proof.Safety
end

section
namespace Sys2Proof.Proofs

open Sys2Proof.Machine Sys2Proof.Safety

/-- Settles O49: the relation, with the invariant's READY at the clear, is kept by every instruction that a step runs. -/
theorem everyStepKeepsLockStep : Obligations.EveryStepKeepsLockStep := by
  intro s t hreg hlock hstep
  have h : InStep s := ⟨hlock, hreg.clear_ready⟩
  rcases step_cases s with ⟨e, he⟩ | hn | ⟨i, script, hi, -⟩
  · cases he.symm.trans hstep
  · cases hn.symm.trans hstep
    exact hlock
  · exact (exec_inStep (h.setScript script) (hi.symm.trans hstep)).lock

end Sys2Proof.Proofs
end

section
/-! SUPPORT. The service of a completion in a stream (42_reception_pipeline.md R160 to R162): where the two variants run,
and which variant RXC runs. -/

namespace Sys2Proof.Machine

/-! ## RXC.FRAME and RXC.OVR -/

/-- R161: the frame is handed over, and the other buffer armed. -/
theorem execRxcFrame_unread {s : State} (hp : s.rxcPend = true) (hl : s.link = .streaming) (hr : s.ready = false)
    (ha : s.rxa = false) :
    execRxcFrame s = .next { s with
      rxcPend := false, ready := true, widx := flipOffset s.widx
      rxa := true, rxsp := .pool, rxbase := flipOffset s.widx, rxlen := 84, rxcnt := 0
      trace := s.trace ++ [.line .rxcFrame, .arm .pool (flipOffset s.widx) 84] } := by
  rw [execRxcFrame, if_pos ⟨hp, hl, hr⟩, armReceive_unarmed (by exact ha)]
  simp [State.log, State.emit, State.clearPend, State.setReady]

/-- The state in which the new frame has been dropped (R162). -/
def State.withFrameDropped (s : State) : State :=
  { s with
    rxcPend := false, cntOvr := bump s.cfg s.cntOvr
    trace := s.trace ++ [.line .rxcOvr, .drop (.overrun s.widx)] }

/-- R162 under `halt`: nothing is armed again. -/
theorem execRxcOvr_halt {s : State} (hp : s.rxcPend = true) (hl : s.link = .streaming) (hr : s.ready = true)
    (hpol : s.cfg.ovrPolicy = .halt) : execRxcOvr s = .next s.withFrameDropped := by
  simp [execRxcOvr, hp, hl, hr, hpol, State.withFrameDropped, State.raiseDrop, State.countDrop, State.log, State.emit,
    State.clearPend]

/-- R162 under `rearm_same`: the same buffer is armed again. -/
theorem execRxcOvr_rearmSame {s : State} (hp : s.rxcPend = true) (hl : s.link = .streaming) (hr : s.ready = true)
    (hpol : s.cfg.ovrPolicy = .rearmSame) : execRxcOvr s = armReceive .pool s.widx 84 s.withFrameDropped := by
  simp [execRxcOvr, hp, hl, hr, hpol, State.withFrameDropped, State.raiseDrop, State.countDrop, State.log, State.emit,
    State.clearPend]

/-! ## RXC -/

theorem execRxc_idle {s : State} (hp : s.rxcPend = true) (hl : s.link = .idle) : execRxc s = execRxcIdle s := by
  simp only [execRxc, hp, hl, if_true]

/-- R160 in a stream: READY selects the variant. -/
theorem execRxc_streaming {s : State} (hp : s.rxcPend = true) (hl : s.link = .streaming) :
    execRxc s = if s.ready then execRxcOvr s else execRxcFrame s := by
  simp only [execRxc, hp, hl, if_true]

/-- With nothing armed, and a byte at DESC[6] where the descriptor is awaited, a pending notification is served (R160). -/
theorem execRxc_completes {s : State} (hp : s.rxcPend = true) (ha : s.rxa = false)
    (he : s.link = .awaiting → (Memory.read s.desc 6).isSome = true) : ∃ t, execRxc s = .next t := by
  cases hl : s.link with
  | idle =>
    rw [execRxc_idle hp hl]
    exact ⟨_, if_pos ⟨hp, hl⟩⟩
  | awaiting =>
    obtain ⟨echo, hecho⟩ := Option.isSome_iff_exists.1 (he hl)
    rw [execRxc_awaiting hp hl hecho]
    split
    · rename_i hok
      exact ⟨_, execRxcHsok_matching hp hl ha (hok ▸ hecho)⟩
    · rename_i hbad
      exact ⟨_, execRxcHsbad_mismatching hp hl hecho hbad⟩
  | streaming =>
    rw [execRxc_streaming hp hl]
    split
    · rename_i hr
      cases hpol : s.cfg.ovrPolicy with
      | halt => exact ⟨_, execRxcOvr_halt hp hl hr hpol⟩
      | rearmSame => exact ⟨_, (execRxcOvr_rearmSame hp hl hr hpol).trans (armReceive_unarmed (by exact ha) _ _ _)⟩
    · rename_i hr
      exact ⟨_, execRxcFrame_unread hp hl (Bool.eq_false_of_not_eq_true hr) ha⟩

end Sys2Proof.Machine
end

section
namespace Sys2Proof.Proofs

open Sys2Proof.Machine Sys2Proof.Safety

/-- Settles O26: its condition guards the step, and the request inside it decides whether it completes. -/
theorem frameIsHandedOver : Obligations.FrameIsHandedOver := by
  intro s
  refine ⟨execRxcFrame_unread, fun hp hl hr ha => ?_, fun hno => if_neg hno⟩
  exact (if_pos ⟨hp, hl, hr⟩).trans (armReceive_armed (by exact ha) _ _ _)

/-- Settles O27: its condition guards the step, and under `rearm_same` the request decides whether it completes. -/
theorem overrunDropsTheNewFrame : Obligations.OverrunDropsTheNewFrame := by
  intro s
  refine ⟨execRxcOvr_halt, fun hp hl hr hpol ha => ?_, fun hp hl hr hpol ha => ?_, fun hno => if_neg hno⟩
  · refine ((execRxcOvr_rearmSame hp hl hr hpol).trans (armReceive_unarmed (by exact ha) _ _ _)).trans ?_
    simp [State.withFrameDropped, bump]
  · exact (execRxcOvr_rearmSame hp hl hr hpol).trans (armReceive_armed (by exact ha) _ _ _)

/-- Settles O24: LINK, then the echo byte or READY, picks the variant, and the frame of RXC gives the last clause. -/
theorem dispatchRunsExactlyOneVariant : Obligations.DispatchRunsExactlyOneVariant := by
  intro s
  refine ⟨execRxc_idle, fun hp hl he => ?_, fun b hp hl he hne => ?_, fun hp hl hr => ?_, fun hp hl hr => ?_,
    fun hp => ?_, fun t hx => ?_⟩
  · exact (execRxc_awaiting hp hl he).trans (if_pos rfl)
  · exact (execRxc_awaiting hp hl he).trans (if_neg hne)
  · exact (execRxc_streaming hp hl).trans (if_neg (ne_true_of_eq_false hr))
  · exact (execRxc_streaming hp hl).trans (if_pos hr)
  · exact if_neg (ne_true_of_eq_false hp)
  · rw [execRxc_frame hx]
    exact ⟨rfl, rfl⟩

/-- Settles O25: every variant that the state selects completes, inside the frame of RXC. -/
theorem dispatchNeverBlocks : Obligations.DispatchNeverBlocks := by
  intro s hp ha he
  obtain ⟨t, hx⟩ := execRxc_completes hp ha he
  have hframe := execRxc_frame hx
  exact ⟨t, hx, congrArg State.rxcPend hframe, hframe⟩

end Sys2Proof.Proofs
end

section
/-! SUPPORT. A block with nothing armed and nothing pending: after an overrun under `halt` (42_reception_pipeline.md R165),
and once its task has settled (70_reset_and_hazards.md R250). -/

namespace Sys2Proof.Safety

open Sys2Proof.Machine

/-! ## Where the task has settled -/

/-- A settled block with nothing armed only polls and loses bytes, until RESET or START. -/
theorem exec_single_sameButTrace_of_settled {i : Instr} {s t : State} (hs : s.settled = true) (ha : s.rxa = false)
    (hr : isRecord i = false) (ho : ownStep i = true) (hreset : i ≠ .reset) (hstart : i ≠ .start)
    (hx : exec i s = .next t) : SameButTrace s t := by
  have he := enabled_of_exec_next hx
  obtain ⟨hpend, -⟩ := (settled_iff s).1 hs
  cases i with
  | waits =>
    obtain ⟨hp, rfl⟩ := execWaits_next hx
    obtain ⟨-, hl⟩ : s.rxcPend = false ∧ s.link ≠ .streaming := by simpa [State.settled, hp] using hs
    simp [SameButTrace, hl, hp]
  | dpoll =>
    obtain ⟨hp, rfl⟩ := execDpoll_next hx
    obtain ⟨-, hready⟩ : s.rxcPend = false ∧ s.ready = false := by simpa [State.settled, hp] using hs
    simp [SameButTrace, hready, hp]
  | taRxb b =>
    cases (execTaRxb_unarmed b ha).symm.trans hx
    rfl
  | reset => exact absurd rfl hreset
  | start => exact absurd rfl hstart
  | dclr | dsync | dcsum | dang | dflip =>
    have hp := of_decide_eq_true he
    simp [State.settled, hp] at hs
  | dcab => cases he
  | rxcIdle | rxcHsok | rxcHsbad | rxcFrame | rxcOvr | rxc => simp [enabled, hpend] at he
  | taArm | taTx | cmdXscan => cases ho
  | descOk | descBad | frameSynced | frameUnsynced => cases hr

/-- The same of every step of XRX's own: the operations of a record are such ones. -/
theorem exec_sameButTrace_of_settled {i : Instr} {s t : State} (hs : s.settled = true) (ha : s.rxa = false)
    (ho : ownStep i = true) (hreset : i ≠ .reset) (hstart : i ≠ .start) (hx : exec i s = .next t) :
    SameButTrace s t := by
  cases hr : isRecord i with
  | false => exact exec_single_sameButTrace_of_settled hs ha hr ho hreset hstart hx
  | true =>
    refine exec_record_keeps (P := SameButTrace s) ?_ hr (.refl s) hx
    intro j u v hjr hjo hjreset hjstart hu hv
    have hsu : u.settled = true := by rw [hu]; exact hs
    have hau : u.rxa = false := by rw [hu]; exact ha
    exact hu.trans (exec_single_sameButTrace_of_settled hsu hau hjr hjo hjreset hjstart hv)

/-! ## After an overrun under `halt` -/

/-- Under `halt` an overrun leaves nothing armed (R162): the invariant has no receive armed beside the notification. -/
theorem execRxcOvr_ends_reception {s t : State} (h : RegInv s) (hpol : s.cfg.ovrPolicy = .halt)
    (hx : execRxcOvr s = .next t) : ReceptionOver t := by
  obtain ⟨hp, hl, -, ⟨-, rfl⟩ | ⟨hre, -, -⟩⟩ := execRxcOvr_next hx
  · exact ⟨hl, h.unarmed_of_pending hp, rfl⟩
  · cases hpol.symm.trans hre

/-- Reception is over in a started block, with the pool and the write side as they were. -/
structure EndedFrom (s t : State) : Prop where
  ended   : ReceptionOver t
  started : t.tph ≠ .tIdle
  pool    : t.pool = s.pool
  widx    : t.widx = s.widx

/-- Once reception is over a single operation but RESET decodes, polls, or loses a byte (R165). -/
theorem ReceptionOver.single {i : Instr} {s t : State} (h : ReceptionOver s) (hs : s.tph ≠ .tIdle)
    (hr : isRecord i = false) (ho : ownStep i = true) (hreset : i ≠ .reset) (hx : exec i s = .next t) :
    EndedFrom s t := by
  have he := enabled_of_exec_next hx
  have hover := h
  obtain ⟨-, ha, hpend⟩ := h
  cases i with
  | waits =>
    obtain ⟨-, rfl⟩ := execWaits_next hx
    exact ⟨hover, by dsimp only; split <;> nofun, rfl, rfl⟩
  | dpoll =>
    obtain ⟨-, rfl⟩ := execDpoll_next hx
    exact ⟨hover, by dsimp only; split <;> nofun, rfl, rfl⟩
  | dclr => obtain ⟨-, rfl⟩ := execDclr_next hx; exact ⟨hover, nofun, rfl, rfl⟩
  | dsync =>
    obtain ⟨-, b0, b1, n, -, -, ⟨-, rfl⟩ | ⟨-, rfl⟩⟩ := execDsync_next hx <;> exact ⟨hover, nofun, rfl, rfl⟩
  | dcsum => obtain ⟨-, acc, ck, n, ⟨-, rfl⟩ | ⟨-, rfl⟩⟩ := execDcsum_next hx <;> exact ⟨hover, nofun, rfl, rfl⟩
  | dang => obtain ⟨-, b3, b2, n, -, -, rfl⟩ := execDang_next hx; exact ⟨hover, nofun, rfl, rfl⟩
  | dflip => obtain ⟨-, rfl⟩ := execDflip_next hx; exact ⟨hover, nofun, rfl, rfl⟩
  | taRxb b =>
    cases (execTaRxb_unarmed b ha).symm.trans hx
    exact ⟨hover, hs, rfl, rfl⟩
  | reset => exact absurd rfl hreset
  | start => exact absurd (of_decide_eq_true he) hs
  | dcab => cases he
  | rxcIdle | rxcHsok | rxcHsbad | rxcFrame | rxcOvr | rxc => simp [enabled, hpend] at he
  | taArm | taTx | cmdXscan => cases ho
  | descOk | descBad | frameSynced | frameUnsynced => cases hr

/-- Every step of XRX's own but RESET leaves reception over. -/
theorem ReceptionOver.step {i : Instr} {s t : State} (h : ReceptionOver s) (hs : s.tph ≠ .tIdle)
    (ho : ownStep i = true) (hreset : i ≠ .reset) (hx : exec i s = .next t) : EndedFrom s t := by
  cases hr : isRecord i with
  | false => exact h.single hs hr ho hreset hx
  | true =>
    refine exec_record_keeps (P := EndedFrom s) ?_ hr ⟨h, hs, rfl, rfl⟩ hx
    intro j u v hjr hjo hjreset _ hu hv
    obtain ⟨hover, hstarted, hpool, hwidx⟩ := hu.ended.single hu.started hjr hjo hjreset hv
    exact ⟨hover, hstarted, hpool.trans hu.pool, hwidx.trans hu.widx⟩

/-- A block stalled after an overrun has settled, so only its trace changes (R250(d)). -/
theorem StallHalt.sameButTrace {i : Instr} {s t : State} (h : StallHalt s) (ho : ownStep i = true)
    (hreset : i ≠ .reset) (hx : exec i s = .next t) : SameButTrace s t := by
  obtain ⟨-, htph, ha, hpend, hready⟩ := h
  have hstart : i ≠ .start := by
    rintro rfl
    obtain ⟨hp, -⟩ := execStart_next hx
    cases htph.symm.trans hp
  exact exec_sameButTrace_of_settled (by simp [State.settled, htph, hpend, hready]) ha ho hreset hstart hx

theorem SameButTrace.stallHalt {s t : State} (h : SameButTrace s t) (hs : StallHalt s) : StallHalt t := by
  rw [h]
  exact hs

end Sys2Proof.Safety
end

section
namespace Sys2Proof.Proofs

open Sys2Proof.Machine Sys2Proof.Safety

/-- Settles O54: the entry by the invariant, then with nothing armed or pending no operation serves or arms, and once the
task has settled only the trace changes. -/
theorem haltedReceptionNeverResumes : Obligations.HaltedReceptionNeverResumes := by
  intro i s t
  refine ⟨fun hpol h hx => execRxcOvr_ends_reception h.regs hpol hx, fun h hs ho hreset hx => ?_,
    fun h ho hreset hx => ?_⟩
  · obtain ⟨hover, hstarted, hpool, hwidx⟩ := h.step hs ho hreset hx
    exact ⟨hover, hstarted, hpool, hwidx⟩
  · have hsame := h.sameButTrace ho hreset hx
    exact ⟨hsame.stallHalt h, hsame.sameService⟩

end Sys2Proof.Proofs
end

section
/-! SUPPORT. A decode of a buffer that nothing races (43_frame_decoder.md R181 to R188): what each operation answers, and
that a whole DECODE has the effect of the reference function. -/

namespace Sys2Proof.Safety

open Sys2Proof.Machine

/-! ## The reads -/

section Reads

variable {s : State} {f : Nat → Byte} (hf : FrameAt s f) (hu : Unraced s)
include hf hu

theorem withFrameByte_of_frame {i : Nat} (hi : i < 84) (k : Byte → State → Result) :
    withFrameByte i s k = k (f i) s := by
  obtain ⟨hin, hread⟩ := hf
  exact withFrameByte_unraced k (fun e he hei => hu e he (by omega)) (by omega) (hread i hi)

theorem withXor_of_frame {n i : Nat} (hi : i + n ≤ 84) (acc : Byte) (k : Byte → State → Result) :
    withXor n i acc s k = k ((List.range' i n).foldl (fun a j => a ^^^ f j) acc) s := by
  obtain ⟨hin, hread⟩ := hf
  exact withXor_unraced f k n i acc fun j _ hj =>
    ⟨fun e he hej => hu e he (by omega), by omega, hread j (by omega)⟩

/-! ## The three tests -/

/-- R183: the frame is in sync. -/
theorem execDsync_in_sync (hp : s.tph = .dSync) (hs : syncOf (f 0) (f 1) = Config.syncValue) :
    execDsync s = .next { s with tph := .dCsum, trace := s.trace ++ [.line .dsync] } := by
  rw [execDsync, if_pos hp, withFrameByte_of_frame (by exact hf) (by exact hu) (by decide),
    withFrameByte_of_frame (by exact hf) (by exact hu) (by decide), if_pos hs]
  rfl

/-- R183: the frame is out of sync. -/
theorem execDsync_out_of_sync (hp : s.tph = .dSync) (hs : syncOf (f 0) (f 1) ≠ Config.syncValue) :
    execDsync s = .next { s with
      tph := .dFlip, dstat := .syncFail, cntSync := bump s.cfg s.cntSync
      trace := s.trace ++ [.line .dsync, .drop (.syncFail (syncOf (f 0) (f 1)))] } := by
  rw [execDsync, if_pos hp, withFrameByte_of_frame (by exact hf) (by exact hu) (by decide),
    withFrameByte_of_frame (by exact hf) (by exact hu) (by decide), if_neg hs]
  simp [State.raiseDrop, State.countDrop, State.log, State.emit]

/-- R184: the checksum is the frame's own. -/
theorem execDcsum_matching (hp : s.tph = .dCsum)
    (hc : (List.range' 2 82).foldl (fun a j => a ^^^ f j) 0x00 = ckrxOf (f 0) (f 1)) :
    execDcsum s = .next { s with tph := .dAng, trace := s.trace ++ [.line .dcsum] } := by
  rw [execDcsum, if_pos hp, withFrameByte_of_frame (by exact hf) (by exact hu) (by decide),
    withFrameByte_of_frame (by exact hf) (by exact hu) (by decide),
    withXor_of_frame (by exact hf) (by exact hu) (by decide), if_pos hc]
  rfl

/-- R184: the checksum is another one. -/
theorem execDcsum_mismatching (hp : s.tph = .dCsum)
    (hc : (List.range' 2 82).foldl (fun a j => a ^^^ f j) 0x00 ≠ ckrxOf (f 0) (f 1)) :
    execDcsum s = .next { s with
      tph := .dFlip, dstat := .csumFail, cntCsum := bump s.cfg s.cntCsum
      trace := s.trace ++ [.line .dcsum,
        .drop (.csumFail ((List.range' 2 82).foldl (fun a j => a ^^^ f j) 0x00) (ckrxOf (f 0) (f 1)))] } := by
  rw [execDcsum, if_pos hp, withFrameByte_of_frame (by exact hf) (by exact hu) (by decide),
    withFrameByte_of_frame (by exact hf) (by exact hu) (by decide),
    withXor_of_frame (by exact hf) (by exact hu) (by decide), if_neg hc]
  simp [State.raiseDrop, State.countDrop, State.log, State.emit]

/-- R185: the angle is published. -/
theorem execDang_publishes (hp : s.tph = .dAng) :
    execDang s = .next { s with
      tph := .dFlip, pubAngleQ6 := angleOf (f 3) (f 2), pubValid := true, dstat := .accepted
      cntAcc := bump s.cfg s.cntAcc, trace := s.trace ++ [.line .dang, .pub (angleOf (f 3) (f 2))] } := by
  rw [execDang, if_pos hp, withFrameByte_of_frame (by exact hf) (by exact hu) (by decide),
    withFrameByte_of_frame (by exact hf) (by exact hu) (by decide)]
  simp [State.countAccept, State.log, State.emit]

end Reads

/-! ## A whole DECODE -/

/-- What a decode with this verdict leaves in the diagnostics and the published angle (R188, R192). -/
def tally (s : State) : Verdict → State
  | .syncFail => { s with dstat := .syncFail, cntSync := bump s.cfg s.cntSync }
  | .csumFail => { s with dstat := .csumFail, cntCsum := bump s.cfg s.cntCsum }
  | .accept q =>
    { s with dstat := .accepted, cntAcc := bump s.cfg s.cntAcc, pubAngleQ6 := q, pubValid := true }

/-- The state after a decode with this verdict: the frame is taken, and the read side is at the other buffer (R187). -/
def decoded (s : State) (v : Verdict) (trace : List Event) : State :=
  { tally s v with ready := false, ridx := flipOffset s.ridx, tph := .dPoll, shadow := [], trace := trace }

/-- The state that DCLR opens the decode in (R182). -/
def decodeOpened (s : State) : State :=
  { s with ready := false, tph := .dSync, shadow := [], trace := s.trace ++ [.line .dpoll, .line .dclr] }

theorem whenPhase_enabled {p : Phase} {s : State} (h : s.tph = p) (f : State → Result) : whenPhase p f s = f s :=
  if_pos h

theorem whenPhase_other {p : Phase} {s : State} (h : s.tph ≠ p) (f : State → Result) : whenPhase p f s = .next s :=
  if_neg h

/-- The rest of a DECODE once DCLR has run. -/
theorem decodeOnce_opens {s : State} (hp : s.tph = .dPoll) (hr : s.ready = true) :
    decodeOnce s =
      andThen (execDsync (decodeOpened s)) fun t3 =>
      andThen (whenPhase .dCsum execDcsum t3) fun t4 =>
      andThen (whenPhase .dAng execDang t4) fun t5 =>
      whenPhase .dFlip execDflip t5 := by
  have hpoll : execDpoll s = .next { s with tph := .dClr, trace := s.trace ++ [.line .dpoll] } :=
    (if_pos hp).trans (if_pos hr)
  have hclr : execDclr { s with tph := .dClr, trace := s.trace ++ [.line .dpoll] } = .next (decodeOpened s) := by
    rw [execDclr, if_pos rfl]
    simp [decodeOpened, State.log, State.emit, State.clearReady]
  rw [decodeOnce, if_pos hp, hpoll, andThen_next, whenPhase_enabled (by rfl), hclr, andThen_next,
    whenPhase_enabled (by rfl)]

/-- R188: DECODE of a handed-over frame has the effect of the reference function. -/
theorem decodeOnce_eq_decodeFrame {s : State} {f : Nat → Byte} (hp : s.tph = .dPoll) (hr : s.ready = true)
    (hf : FrameAt s f) : ∃ trace, decodeOnce s = .next (decoded s (decodeFrame f) trace) := by
  have hu : Unraced (decodeOpened s) := nofun
  rw [decodeOnce_opens hp hr]
  by_cases hs : syncOf (f 0) (f 1) = Config.syncValue
  · rw [execDsync_in_sync (by exact hf) hu rfl hs, andThen_next, whenPhase_enabled (by rfl)]
    by_cases hc : (List.range' 2 82).foldl (fun a j => a ^^^ f j) 0x00 = ckrxOf (f 0) (f 1)
    · have hv : decodeFrame f = .accept (angleOf (f 3) (f 2)) := (if_neg (not_not.2 hs)).trans (if_neg (not_not.2 hc))
      rw [hv, execDcsum_matching (by exact hf) (by exact hu) rfl hc, andThen_next, whenPhase_enabled (by rfl),
        execDang_publishes (by exact hf) (by exact hu) rfl, andThen_next, whenPhase_enabled (by rfl)]
      exact ⟨_, if_pos rfl⟩
    · have hv : decodeFrame f = .csumFail := (if_neg (not_not.2 hs)).trans (if_pos hc)
      rw [hv, execDcsum_mismatching (by exact hf) (by exact hu) rfl hc, andThen_next, whenPhase_other (by nofun),
        andThen_next, whenPhase_enabled (by rfl)]
      exact ⟨_, if_pos rfl⟩
  · have hv : decodeFrame f = .syncFail := if_pos hs
    rw [hv, execDsync_out_of_sync (by exact hf) hu rfl hs, andThen_next, whenPhase_other (by nofun), andThen_next,
      whenPhase_other (by nofun), andThen_next, whenPhase_enabled (by rfl)]
    exact ⟨_, if_pos rfl⟩

end Sys2Proof.Safety
end

section
/-! SUPPORT. A frame record in a stream with every earlier frame decoded (42_reception_pipeline.md R161): its bytes land in
the buffer at WIDX, which is the one that the decoder reads next, and are handed over and decoded. -/

namespace Sys2Proof.Safety

open Sys2Proof.Machine

/-- The state in which the record has been handed over (R161). -/
def frameHandedOver (s : State) (f : List Byte) (shadow : List (Nat × Option Byte)) (trace : List Event) : State :=
  { s with
    pool := storeRun s.pool s.ridx.toNat f, ready := true, widx := flipOffset s.widx, rxbase := flipOffset s.widx
    shadow := shadow, trace := trace }

/-- The 84 bytes fill the armed receive. -/
theorem StreamReady.lands {s : State} (h : StreamReady s) {f : List Byte} (hl : f.length = 84) :
    ∃ shadow, landAll f s = .next (s.withPoolRun f shadow) := by
  obtain ⟨-, -, -, -, ha, hsp, hbase, hlen, hcnt, heq, hlegal⟩ := h
  have hlen84 : s.rxlen.toNat = 84 := congrArg BitVec.toNat hlen
  have hcnt0 : s.rxcnt.toNat = 0 := congrArg BitVec.toNat hcnt
  have hbase84 : s.rxbase.toNat ≤ 84 := legal_toNat_le ((hbase.trans heq) ▸ hlegal)
  exact landAll_lands_pool f ha hsp (by omega) (by omega) (by omega)

/-- The completion that they make is served by handing the frame over. -/
theorem StreamReady.serves {s : State} (h : StreamReady s) {f : List Byte} (hl : f.length = 84)
    (shadow : List (Nat × Option Byte)) :
    ∃ trace, serveIfPending (s.withPoolRun f shadow) = .next (frameHandedOver s f shadow trace) := by
  obtain ⟨hlink, -, hready, hpend, ha, hsp, hbase, hlen, hcnt, heq, -⟩ := h
  have hfull : s.rxcnt.toNat + f.length = s.rxlen.toNat := by rw [hcnt, hlen, hl]; rfl
  have hp : (s.withPoolRun f shadow).rxcPend = true := if_pos hfull
  have hunarmed : (s.withPoolRun f shadow).rxa = false := if_pos hfull
  have hframe := execRxcFrame_unread (s := s.withPoolRun f shadow) hp hlink hready hunarmed
  have hserve : serveIfPending (s.withPoolRun f shadow) = execRxcFrame (s.withPoolRun f shadow) :=
    ((if_pos hp).trans (execRxc_streaming hp hlink)).trans (if_neg (ne_true_of_eq_false hready))
  refine ⟨(s.withPoolRun f shadow).trace ++ [.line .rxcFrame, .arm .pool (flipOffset s.widx) 84],
    (hserve.trans hframe).trans (congrArg Host.Outcome.next ?_)⟩
  have hoff : s.rxbase.toNat + s.rxcnt.toNat = s.ridx.toNat := by rw [hbase, heq, hcnt]; rfl
  have hpool : (s.withPoolRun f shadow).pool = storeRun s.pool s.ridx.toNat f := congrArg (storeRun s.pool · f) hoff
  simp only [frameHandedOver, hpool, hpend, ha, hsp, hlen, hcnt]
  rfl

/-- What the decoder finds at RIDX is the record. -/
theorem StreamReady.frameAt {s : State} (h : StreamReady s) {f : List Byte} (hl : f.length = 84)
    (shadow : List (Nat × Option Byte)) (trace : List Event) :
    FrameAt (frameHandedOver s f shadow trace) fun i => f.getD i 0 := by
  obtain ⟨-, -, -, -, -, -, -, -, -, -, hlegal⟩ := h
  have hin := legal_toNat_le hlegal
  refine ⟨Nat.add_le_add_right hin 84, fun i hi => ?_⟩
  have hif : i < f.length := hl.symm ▸ hi
  refine (read_storeRun f s.pool s.ridx.toNat hif).trans ?_
  simp [List.getElem?_eq_getElem hif]

/-- A whole record is landed, handed over and decoded. -/
theorem StreamReady.receiveFrame_decodes {s : State} (h : StreamReady s) {f : List Byte} (hl : f.length = 84) :
    ∃ shadow trace trace', receiveFrame f s =
      .next (decoded (frameHandedOver s f shadow trace) (decodeFrame fun i => f.getD i 0) trace') := by
  obtain ⟨shadow, hland⟩ := h.lands hl
  obtain ⟨trace, hserve⟩ := h.serves hl shadow
  have hframe := h.frameAt hl shadow trace
  obtain ⟨-, htph, -⟩ := h
  obtain ⟨trace', hdecode⟩ := decodeOnce_eq_decodeFrame (by exact htph) rfl hframe
  exact ⟨shadow, trace, trace', by rw [receiveFrame, hland, andThen_next, hserve, andThen_next, hdecode]⟩

/-- After it the block is ready for the next record, in the other buffer. -/
theorem StreamReady.next {s : State} (h : StreamReady s) (f : List Byte) (shadow : List (Nat × Option Byte))
    (trace trace' : List Event) (v : Verdict) : StreamReady (decoded (frameHandedOver s f shadow trace) v trace') := by
  obtain ⟨hlink, -, -, hpend, ha, hsp, -, hlen, hcnt, heq, hlegal⟩ := h
  cases v <;>
    exact ⟨hlink, rfl, rfl, hpend, ha, hsp, rfl, hlen, hcnt, congrArg flipOffset heq, flipOffset_legal hlegal⟩

/-- The two rows of frames are one reception (R99). -/
theorem exec_frameInstr (f : List Byte) (s : State) : exec (frameInstr f) s = receiveFrame f s := by
  unfold frameInstr
  split <;> rfl

end Sys2Proof.Safety
end

section
namespace Sys2Proof.Proofs

open Sys2Proof.Machine Sys2Proof.Safety

/-- Settles O41: the record lands at WIDX = RIDX, is handed over and decoded, and each verdict leaves its own diagnostics. -/
theorem frameRecordIsDecoded : Obligations.FrameRecordIsDecoded := by
  intro s f h hl
  obtain ⟨shadow, trace, trace', hx⟩ := h.receiveFrame_decodes hl
  have hnext := h.next f shadow trace trace'
  obtain ⟨-, htph, hready, -⟩ := h
  generalize decodeFrame (fun i => f.getD i 0) = v at hx
  have hpool : (decoded (frameHandedOver s f shadow trace) v trace').pool = storeRun s.pool s.ridx.toNat f := by
    cases v <;> rfl
  refine ⟨_, (exec_frameInstr f s).trans hx, hnext v, fun k hk => ?_, fun a hout => ?_, ?_⟩
  · rw [hpool, read_storeRun f _ _ (hl.symm ▸ hk)]
  · rw [hpool]
    exact hout.elim (read_storeRun_before f _) fun ha => read_storeRun_after f _ (hl.symm ▸ ha)
  · cases v <;> simp [decoded, tally, frameHandedOver, htph, hready, flipOffset, bump]

end Sys2Proof.Proofs
end

section
/-! SUPPORT. The checksum of a frame (43_frame_decoder.md R184) and the reference function by its three verdicts (R188). -/

namespace Sys2Proof.Machine

/-! ## The XOR of the body -/

/-- R184: ACC after the loop, the XOR of bytes 2 to 83 in the rule's order. -/
def bodyXor (f : Nat → Byte) : Byte := (List.range' 2 82).foldl (fun a j => a ^^^ f j) 0x00

/-- The loop may run in the other direction. -/
theorem bodyXor_eq_foldr (f : Nat → Byte) : bodyXor f = (List.range 82).foldr (fun i a => f (2 + i) ^^^ a) 0x00 := by
  calc bodyXor f
      = ((List.range 82).map fun i => f (2 + i)).foldl (· ^^^ ·) 0x00 := by
        rw [bodyXor, List.range'_eq_map_range, List.foldl_map, List.foldl_map]
    _ = ((List.range 82).map fun i => f (2 + i)).foldr (· ^^^ ·) 0x00 := List.foldl_eq_foldr
    _ = (List.range 82).foldr (fun i a => f (2 + i) ^^^ a) 0x00 := List.foldr_map

/-- Only the bytes 2 to 83 count. -/
theorem bodyXor_congr {f g : Nat → Byte} (h : ∀ j, 2 ≤ j → j < 84 → f j = g j) : bodyXor f = bodyXor g := by
  refine List.foldl_ext _ _ _ fun a j hj => ?_
  have hrange := List.mem_range'_1.1 hj
  rw [h j hrange.1 hrange.2]

/-- A running XOR from two different values stays different. -/
theorem foldl_xor_ne_of_acc_ne (f : Nat → Byte) (l : List Nat) {a b : Byte} (h : a ≠ b) :
    l.foldl (fun acc j => acc ^^^ f j) a ≠ l.foldl (fun acc j => acc ^^^ f j) b := by
  induction l generalizing a b with
  | nil => exact h
  | cons j l ih => exact ih fun heq => h ((BitVec.xor_left_inj (f j)).1 heq)

/-- Two running XORs that differ in one byte, read once, end different. -/
theorem foldl_xor_ne_of_one_changed {f g : Nat → Byte} {i : Nat} (hi : f i ≠ g i) (hsame : ∀ j, j ≠ i → g j = f j)
    {l : List Nat} (hl : l.Nodup) (hmem : i ∈ l) (a : Byte) :
    l.foldl (fun acc j => acc ^^^ f j) a ≠ l.foldl (fun acc j => acc ^^^ g j) a := by
  induction l generalizing a with
  | nil => cases hmem
  | cons j l ih =>
    obtain ⟨hj, hl⟩ := List.nodup_cons.1 hl
    rw [List.foldl_cons, List.foldl_cons]
    rcases List.mem_cons.1 hmem with rfl | hmem
    · have htail (b : Byte) : l.foldl (fun acc k => acc ^^^ g k) b = l.foldl (fun acc k => acc ^^^ f k) b :=
        List.foldl_ext _ _ _ fun acc k hk => by rw [hsame k fun hki => hj (hki ▸ hk)]
      rw [htail]
      exact foldl_xor_ne_of_acc_ne f l fun heq => hi ((BitVec.xor_right_inj a).1 heq)
    · rw [hsame j fun hji => hj (hji ▸ hmem)]
      exact ih hl hmem _

/-- R184: one changed byte of the body changes the checksum. -/
theorem bodyXor_ne_of_one_changed {f g : Nat → Byte} {i : Nat} (h2 : 2 ≤ i) (h83 : i ≤ 83) (hi : f i ≠ g i)
    (hsame : ∀ j, j ≠ i → g j = f j) : bodyXor f ≠ bodyXor g :=
  foldl_xor_ne_of_one_changed hi hsame (List.nodup_range' 1) (List.mem_range'_1.2 ⟨h2, by omega⟩) 0x00

/-- R96: a value is the received checksum exactly when it is the number of its two nibbles. -/
theorem eq_ckrxOf_iff (acc b0 b1 : Byte) : acc = ckrxOf b0 b1 ↔ acc.toNat = 16 * (lo4 b1).toNat + (lo4 b0).toNat := by
  rw [ckrxOf_eq, ← toNat_nibbles, BitVec.toNat_inj]

/-! ## The reference function -/

theorem decodeFrame_out_of_sync {f : Nat → Byte} (hs : syncOf (f 0) (f 1) ≠ Config.syncValue) :
    decodeFrame f = .syncFail :=
  if_pos hs

theorem decodeFrame_mismatching {f : Nat → Byte} (hs : syncOf (f 0) (f 1) = Config.syncValue)
    (hc : bodyXor f ≠ ckrxOf (f 0) (f 1)) : decodeFrame f = .csumFail :=
  (if_neg (not_not.2 hs)).trans (if_pos hc)

theorem decodeFrame_matching {f : Nat → Byte} (hs : syncOf (f 0) (f 1) = Config.syncValue)
    (hc : bodyXor f = ckrxOf (f 0) (f 1)) : decodeFrame f = .accept (angleOf (f 3) (f 2)) :=
  (if_neg (not_not.2 hs)).trans (if_neg (not_not.2 hc))

/-- An accepted frame has passed both tests. -/
theorem tests_of_decodeFrame_accept {f : Nat → Byte} {q : BitVec 16} (h : decodeFrame f = .accept q) :
    syncOf (f 0) (f 1) = Config.syncValue ∧ bodyXor f = ckrxOf (f 0) (f 1) := by
  by_cases hs : syncOf (f 0) (f 1) = Config.syncValue
  · by_cases hc : bodyXor f = ckrxOf (f 0) (f 1)
    · exact ⟨hs, hc⟩
    · exact nomatch (decodeFrame_mismatching hs hc).symm.trans h
  · exact nomatch (decodeFrame_out_of_sync hs).symm.trans h

end Sys2Proof.Machine
end

section
/-! SUPPORT. A decode as a run of single operations, the checksum test on raced bytes (43_frame_decoder.md
R189), and the phase that the service of a completion leaves (R180). -/

namespace Sys2Proof.Safety

open Sys2Proof.Machine

/-- A run whose first operation completes goes on from the state it answers. -/
theorem runInstrs_cons_of_next {i : Instr} {s t : State} (h : exec i s = .next t) (rest : List Instr) :
    runInstrs (i :: rest) s = runInstrs rest t := by
  rw [runInstrs, h, andThen_next]

/-- The state in which DCLR leaves the decode open (R182). -/
def frameTaken (s : State) : State :=
  { s with ready := false, tph := .dSync, shadow := [], trace := s.trace ++ [.line .dclr] }

/-- DCLR begins the run of a decode. -/
theorem runInstrs_dclr {s : State} (hp : s.tph = .dClr) (rest : List Instr) :
    runInstrs (.dclr :: rest) s = runInstrs rest (frameTaken s) :=
  runInstrs_cons_of_next (i := .dclr) (if_pos hp) rest

/-- Nothing is raced yet in it. -/
theorem unraced_frameTaken (s : State) : Unraced (frameTaken s) := nofun

/-- DFLIP ends the run of a decode. -/
theorem runInstrs_dflip {s : State} (hp : s.tph = .dFlip) :
    runInstrs [.dflip] s =
      .next { s with ridx := flipOffset s.ridx, tph := .dPoll, shadow := [], trace := s.trace ++ [.line .dflip] } :=
  runInstrs_cons_of_next (i := .dflip) (if_pos hp) []

/-- The running XOR over readable bytes goes on with one candidate for each byte. -/
theorem withXor_next_candidates {s t : State} (hr : AllReadable s) {n i : Nat} (hi : i + n ≤ 84) {acc : Byte}
    {k : Byte → State → Result} (h : withXor n i acc s k = .next t) :
    ∃ (g : Nat → Byte) (m : Nat), (∀ j, i ≤ j → j < i + n → some (g j) ∈ s.candidates (s.ridx.toNat + j)) ∧
      k ((List.range' i n).foldl (fun a j => a ^^^ g j) acc) { s with freeIdx := m } = .next t := by
  obtain ⟨hin, hsome⟩ := hr
  obtain ⟨g, m, hg, hk⟩ := withXor_candidate k n i acc s fun j _ hj => ⟨by omega, hsome j (by omega)⟩
  exact ⟨g, m, hg, hk ▸ h⟩

/-- A frame's bytes with the two of its header read apart (R184 reads bytes 0 and 1 before the loop). -/
def withHeader (b0 b1 : Byte) (body : Nat → Byte) : Nat → Byte
  | 0 => b0
  | 1 => b1
  | j + 2 => body (j + 2)

theorem withHeader_body (b0 b1 : Byte) (body : Nat → Byte) {j : Nat} (hj : 2 ≤ j) : withHeader b0 b1 body j = body j := by
  obtain ⟨j, rfl⟩ := Nat.exists_eq_add_of_le' hj
  rfl

theorem bodyXor_withHeader (b0 b1 : Byte) (body : Nat → Byte) : bodyXor (withHeader b0 b1 body) = bodyXor body :=
  bodyXor_congr fun _ hj _ => withHeader_body b0 b1 body hj

/-- R189: on readable bytes DCSUM is the test of R184 on one candidate for each of the 84 bytes. -/
theorem execDcsum_next_candidates {s t : State} (hr : AllReadable s) (h : execDcsum s = .next t) :
    ∃ (g : Nat → Byte) (n : Nat), (∀ i, i < 84 → some (g i) ∈ s.candidates (s.ridx.toNat + i)) ∧
      ((bodyXor g = ckrxOf (g 0) (g 1) ∧
          t = { s with freeIdx := n, tph := .dAng, trace := s.trace ++ [.line .dcsum] }) ∨
        (bodyXor g ≠ ckrxOf (g 0) (g 1) ∧ t = { s with
          freeIdx := n, tph := .dFlip, dstat := .csumFail, cntCsum := bump s.cfg s.cntCsum
          trace := s.trace ++ [.line .dcsum, .drop (.csumFail (bodyXor g) (ckrxOf (g 0) (g 1)))] })) := by
  obtain ⟨hp, -⟩ := execDcsum_next h
  rw [execDcsum, if_pos hp] at h
  obtain ⟨b0, n0, h0, h⟩ := withFrameByte_eq_next h
  obtain ⟨b1, n1, h1, h⟩ := withFrameByte_eq_next h
  obtain ⟨body, n, hbody, h⟩ := withXor_next_candidates (by exact hr) (by decide) h
  refine ⟨withHeader b0 b1 body, n, fun i hi => ?_, ?_⟩
  · match i with
    | 0 => exact h0
    | 1 => exact h1
    | j + 2 => exact hbody (j + 2) (by omega) (by omega)
  · rw [bodyXor_withHeader]
    split at h <;> rename_i hc <;> cases h
    · exact .inl ⟨hc, by simp [State.log, State.emit]⟩
    · exact .inr ⟨hc, by simp [State.raiseDrop, State.countDrop, State.log, State.emit, withHeader, bodyXor]⟩

/-- R180: the service of a completion leaves TPH. -/
theorem service_tph {s t : State}
    (h : execRxcIdle s = .next t ∨ execRxcHsok s = .next t ∨ execRxcHsbad s = .next t ∨ execRxcFrame s = .next t ∨
      execRxcOvr s = .next t) : t.tph = s.tph := by
  rcases h with h | h | h | h | h
  · obtain ⟨-, -, rfl⟩ := execRxcIdle_next h; rfl
  · obtain ⟨-, -, -, -, rfl⟩ := execRxcHsok_next h; rfl
  · obtain ⟨-, -, b, -, -, rfl⟩ := execRxcHsbad_next h; rfl
  · obtain ⟨-, -, -, -, rfl⟩ := execRxcFrame_next h; rfl
  · obtain ⟨-, -, -, ⟨-, rfl⟩ | ⟨-, -, rfl⟩⟩ := execRxcOvr_next h <;> rfl

end Sys2Proof.Safety
end

section
namespace Sys2Proof.Proofs

open Sys2Proof.Machine Sys2Proof.Safety

/-- Settles O35: DCLR leaves no byte raced, so each test goes by the frame's own bytes, as the reference function's. -/
theorem decodeIsTheReferenceFunction : Obligations.DecodeIsTheReferenceFunction := by
  intro s f hp hf
  have hft : FrameAt (frameTaken s) f := hf
  have hu := unraced_frameTaken s
  by_cases hs : syncOf (f 0) (f 1) = Config.syncValue
  · have hsync := execDsync_in_sync hft hu rfl hs
    by_cases hc : bodyXor f = ckrxOf (f 0) (f 1)
    · rw [decodeFrame_matching hs hc]
      refine ⟨rfl, ?_⟩
      rw [runInstrs_dclr hp, runInstrs_cons_of_next (i := .dsync) hsync,
        runInstrs_cons_of_next (i := .dcsum) (execDcsum_matching (by exact hft) (by exact hu) rfl hc),
        runInstrs_cons_of_next (i := .dang) (execDang_publishes (by exact hft) (by exact hu) rfl), runInstrs_dflip rfl]
      simp [frameTaken, flipOffset, bump]
    · rw [decodeFrame_mismatching hs hc]
      dsimp only
      rw [runInstrs_dclr hp, runInstrs_cons_of_next (i := .dsync) hsync,
        runInstrs_cons_of_next (i := .dcsum) (execDcsum_mismatching (by exact hft) (by exact hu) rfl hc),
        runInstrs_dflip rfl]
      simp [frameTaken, flipOffset, bump]
  · rw [decodeFrame_out_of_sync hs]
    dsimp only
    rw [runInstrs_dclr hp, runInstrs_cons_of_next (i := .dsync) (execDsync_out_of_sync hft hu rfl hs),
      runInstrs_dflip rfl]
    simp [frameTaken, flipOffset, bump]

/-- Settles O36: each operation completes, and its own lemma says on which candidates. -/
theorem racedReadsReturnOldOrNewBytes : Obligations.RacedReadsReturnOldOrNewBytes := by
  refine fun s hr => ⟨fun hp => ?_, fun hp => ?_, fun hp => ?_⟩
  · obtain ⟨t, ht⟩ := execDsync_completes hr hp
    obtain ⟨-, b0, b1, n, h0, h1, hcase⟩ := execDsync_next ht
    refine ⟨b0, b1, n, h0, h1, ?_⟩
    rcases hcase with ⟨hs, rfl⟩ | ⟨hs, rfl⟩
    · exact ⟨fun _ => ht, fun hout => absurd ((syncOf_eq_A5_iff b0 b1).1 hs) hout⟩
    · exact ⟨fun hin => absurd ((syncOf_eq_A5_iff b0 b1).2 hin) hs, fun _ => ht⟩
  · obtain ⟨t, ht⟩ := execDcsum_completes hr hp
    obtain ⟨g, n, hg, hcase⟩ := execDcsum_next_candidates hr ht
    refine ⟨g, bodyXor g, n, hg, rfl, ?_⟩
    rcases hcase with ⟨hc, rfl⟩ | ⟨hc, rfl⟩
    · exact ⟨fun _ => ht, fun hne => absurd hc hne⟩
    · exact ⟨fun heq => absurd heq hc, fun _ => ht⟩
  · obtain ⟨t, ht⟩ := execDang_completes hr hp
    obtain ⟨-, b3, b2, n, h3, h2, rfl⟩ := execDang_next ht
    exact ⟨b3, b2, n, h3, h2, ht⟩

/-- Settles O38: the header is the same, so the sync test passes again, and the checksum received is the old one. -/
theorem checksumDetectsOneChangedByte : Obligations.ChecksumDetectsOneChangedByte := by
  intro f g q i hf h2 h83 hi hsame
  obtain ⟨hs, hc⟩ := tests_of_decodeFrame_accept hf
  have h0 : g 0 = f 0 := hsame 0 (by omega)
  have h1 : g 1 = f 1 := hsame 1 (by omega)
  refine decodeFrame_mismatching (by rw [h0, h1, hs]) fun hg => ?_
  rw [h0, h1, ← hc] at hg
  exact bodyXor_ne_of_one_changed h2 h83 hi hsame hg.symm

/-- Settles O39: each operation's own lemma gives its phase and the next one. -/
theorem phaseGraph : Obligations.PhaseGraph := by
  intro i s t hrec h
  cases i with
  | reset => cases h; rfl
  | start => obtain ⟨hp, -, rfl⟩ := execStart_next h; exact ⟨hp, rfl⟩
  | waits => obtain ⟨hp, rfl⟩ := execWaits_next h; exact ⟨hp, rfl⟩
  | dpoll => obtain ⟨hp, rfl⟩ := execDpoll_next h; exact ⟨hp, rfl⟩
  | dclr => obtain ⟨hp, rfl⟩ := execDclr_next h; exact ⟨hp, rfl⟩
  | dsync =>
    obtain ⟨hp, b0, b1, n, -, -, ⟨-, rfl⟩ | ⟨-, rfl⟩⟩ := execDsync_next h
    · exact ⟨hp, .inl rfl⟩
    · exact ⟨hp, .inr rfl⟩
  | dcsum =>
    obtain ⟨hp, acc, ck, n, ⟨-, rfl⟩ | ⟨-, rfl⟩⟩ := execDcsum_next h
    · exact ⟨hp, .inl rfl⟩
    · exact ⟨hp, .inr rfl⟩
  | dang => obtain ⟨hp, b3, b2, n, -, -, rfl⟩ := execDang_next h; exact ⟨hp, rfl⟩
  | dcab => cases h
  | dflip => obtain ⟨hp, rfl⟩ := execDflip_next h; exact ⟨hp, rfl⟩
  | taArm => obtain ⟨-, rfl⟩ := execTaArm_next h; rfl
  | taRxb b => obtain ⟨-, rfl⟩ | ⟨-, -, -, rfl⟩ | ⟨-, -, -, rfl⟩ := execTaRxb_next h <;> rfl
  | taTx | cmdXscan => cases h; rfl
  | rxcIdle => exact service_tph (.inl h)
  | rxcHsok => exact service_tph (.inr (.inl h))
  | rxcHsbad => exact service_tph (.inr (.inr (.inl h)))
  | rxcFrame => exact service_tph (.inr (.inr (.inr (.inl h))))
  | rxcOvr => exact service_tph (.inr (.inr (.inr (.inr h))))
  | rxc => exact service_tph (execRxc_next h)
  | descOk | descBad | frameSynced | frameUnsynced => cases hrec

/-- Settles O28: the phase guards the step, and the signal decides the next phase. -/
theorem dpollSeesTheSignal : Obligations.DpollSeesTheSignal := by
  intro s
  exact ⟨fun hp hr => (if_pos hp).trans (if_pos hr), fun hp hr => (if_pos hp).trans (if_neg (ne_true_of_eq_false hr)),
    fun hp => if_neg hp⟩

/-- Settles O29: the phase guards the step. -/
theorem dclrTakesTheFrame : Obligations.DclrTakesTheFrame := fun _ => ⟨fun hp => if_pos hp, fun hp => if_neg hp⟩

/-- Settles O30: SYNC is A5 exactly when the two nibbles are A and 5. -/
theorem dsyncChecksTheSyncByte : Obligations.DsyncChecksTheSyncByte := by
  refine fun s => ⟨fun f hp hf hu => ⟨fun hin => ?_, fun hout => ?_⟩, fun hp => if_neg hp⟩
  · exact execDsync_in_sync hf hu hp ((syncOf_eq_A5_iff _ _).2 hin)
  · exact execDsync_out_of_sync hf hu hp fun hs => hout ((syncOf_eq_A5_iff _ _).1 hs)

/-- Settles O31: the fold of the other direction is ACC, and CKRX is the number of the two nibbles. -/
theorem dcsumValidatesTheChecksum : Obligations.DcsumValidatesTheChecksum := by
  refine fun s => ⟨fun f hp hf hu acc hacc => ?_, fun hp => if_neg hp⟩
  obtain rfl : acc = bodyXor f := hacc.trans (bodyXor_eq_foldr f).symm
  rw [Ne, ← eq_ckrxOf_iff]
  exact ⟨execDcsum_matching hf hu hp, execDcsum_mismatching hf hu hp⟩

/-- Settles O32: the phase guards the step, and the two reads return the frame's own bytes. -/
theorem dangPublishesTheAngle : Obligations.DangPublishesTheAngle :=
  fun _ => ⟨fun _ hp hf hu => execDang_publishes hf hu hp, fun hp => if_neg hp⟩

/-- Settles O33: the arm of DCAB holds nothing but the refusal. -/
theorem cabinDecodeIsRefused : Obligations.CabinDecodeIsRefused := fun _ => rfl

/-- Settles O34: the phase guards the step, and the flip is its own inverse on the two offsets. -/
theorem dflipFlipsTheReadOffset : Obligations.DflipFlipsTheReadOffset :=
  fun _ => ⟨fun hp => if_pos hp, fun hp => if_neg hp, by decide, by decide⟩

end Sys2Proof.Proofs
end

section
/-! SUPPORT. What the state selects by itself, and the step of an empty script (60_exceptions.md R218(a), 30_encoding.md
R100). -/

namespace Sys2Proof.Machine

variable {s : State}

/-- RP comes before TASK (R218(a)). -/
theorem selected_of_pending (hp : s.rxcPend = true) : s.selected = some .rxc := if_pos hp

/-- With nothing scripted the step is what the state selects, and none selected is no change (log entry 7). -/
theorem step_of_script_nil (hs : s.script = []) : step s = s.selected.elim (.next s) (exec · s) := by
  have hline : nextLine s.script = none := by rw [hs]; rfl
  rw [step, hline]
  cases s.selected with
  | none => rfl
  | some i => rfl

end Sys2Proof.Machine
end

section
namespace Sys2Proof.Proofs

open Sys2Proof.Machine

/-- Settles O2: a pending notification selects RXC, whatever the phase; with none pending, each phase selects its own
operation. -/
theorem unscriptedStepServesTheInterruptFirst : Obligations.UnscriptedStepServesTheInterruptFirst := by
  intro s hs
  rw [step_of_script_nil hs]
  refine ⟨fun hp => by rw [selected_of_pending hp]; rfl, fun hp => ?_⟩
  rw [State.selected, if_neg (ne_true_of_eq_false hp)]
  cases s.tph with
  | tIdle => rfl
  | tWait | dPoll | dClr | dSync | dCsum | dAng | dFlip => rfl

end Sys2Proof.Proofs
end

section
/-! SUPPORT. How far the write side is ahead of the read side, told by READY and the phase (42_reception_pipeline.md R163),
and what P1 gives of it (70_reset_and_hazards.md R244, R246). -/

namespace Sys2Proof.Safety

open Sys2Proof.Machine

/-! ## The distance of the two sides -/

/-- The frame not yet taken and the decode not yet closed are what the write side is ahead (R163). -/
theorem LockStep.ahead_eq {s : State} (h : LockStep s) :
    nW s = nR s + (decodeOpen s).toNat + s.ready.toNat := by
  obtain ⟨-, -, hlow, hup, hopen, hhlow, -, hready⟩ := h
  have htaken : nC s = nR s + (decodeOpen s).toNat := by
    cases ho : decodeOpen s with
    | false =>
      have hne : nC s ≠ nR s + 1 := fun he => nomatch ho.symm.trans (hopen.2 he)
      rw [Bool.toNat_false]
      omega
    | true => exact hopen.1 ho
  omega

/-- Not both a frame handed over and a decode open. -/
def OneInHand (s : State) : Prop := s.ready = true → decodeOpen s = false

/-- In a stream the decoder has nothing left to do: what P1 asks of a step that serves a completion (R244). -/
def CaughtUp (s : State) : Prop := s.link = .streaming → s.ready = false ∧ decodeOpen s = false

theorem LockStep.le_succ_iff {s : State} (h : LockStep s) : nW s ≤ nR s + 1 ↔ OneInHand s := by
  rw [h.ahead_eq, OneInHand]
  cases s.ready <;> cases decodeOpen s <;> simp

theorem LockStep.eq_iff {s : State} (h : LockStep s) : nR s = nW s ↔ s.ready = false ∧ decodeOpen s = false := by
  rw [h.ahead_eq]
  cases s.ready <;> cases decodeOpen s <;> simp [Nat.add_assoc]

theorem P1.caughtUp {s : State} {i : Instr} (hp : P1 s i) (h : LockStep s) (hi : servesCompletion i = true) :
    CaughtUp s :=
  fun hl => h.eq_iff.1 (hp hi hl)

/-! ## What a record does -/

/-- A record lands its bytes, serves the completion they made, and then may decode once (R103, log entry 9). -/
theorem exec_record_next {i : Instr} {s t : State} (hr : isRecord i = true) (hx : exec i s = .next t) :
    ∃ u v, landAll (received i) s = .next u ∧ serveIfPending u = .next v ∧ (t = v ∨ decodeOnce v = .next t) := by
  have hdesc {d} (h : receiveDescriptor d s = .next t) :
      ∃ u v, landAll d s = .next u ∧ serveIfPending u = .next v ∧ (t = v ∨ decodeOnce v = .next t) := by
    obtain ⟨u, hu, h⟩ := andThen_eq_next.1 h
    exact ⟨u, t, hu, h, .inl rfl⟩
  have hframe {f} (h : receiveFrame f s = .next t) :
      ∃ u v, landAll f s = .next u ∧ serveIfPending u = .next v ∧ (t = v ∨ decodeOnce v = .next t) := by
    obtain ⟨u, hu, h⟩ := andThen_eq_next.1 h
    obtain ⟨v, hv, h⟩ := andThen_eq_next.1 h
    exact ⟨u, v, hu, hv, .inr h⟩
  cases i with
  | descOk | descBad => exact hdesc hx
  | frameSynced | frameUnsynced => exact hframe hx
  | _ => cases hr

theorem servesCompletion_of_isRecord {i : Instr} (hr : isRecord i = true) : servesCompletion i = true := by
  cases i with
  | descOk | descBad | frameSynced | frameUnsynced => rfl
  | _ => cases hr

/-! ## At most one frame ahead -/

/-- A frame is handed over only where the decoder has caught up (R161, R244). -/
theorem service_oneInHand {s t : State} (hc : CaughtUp s) (h : OneInHand s)
    (hx : execRxcIdle s = .next t ∨ execRxcHsok s = .next t ∨ execRxcHsbad s = .next t ∨ execRxcFrame s = .next t ∨
      execRxcOvr s = .next t) : OneInHand t := by
  rcases hx with hx | hx | hx | hx | hx
  · obtain ⟨-, -, rfl⟩ := execRxcIdle_next hx; exact h
  · obtain ⟨-, -, -, -, rfl⟩ := execRxcHsok_next hx; exact h
  · obtain ⟨-, -, b, -, -, rfl⟩ := execRxcHsbad_next hx; exact h
  · obtain ⟨-, hl, -, -, rfl⟩ := execRxcFrame_next hx
    obtain ⟨-, hclosed⟩ := hc hl
    exact fun _ => hclosed
  · obtain ⟨-, -, -, ⟨-, rfl⟩ | ⟨-, -, rfl⟩⟩ := execRxcOvr_next hx <;> exact h

/-- The decode opens by taking the frame that was handed over, so only a service could bring both (R182). -/
theorem exec_single_oneInHand {i : Instr} {s t : State} (hr : isRecord i = false)
    (hc : servesCompletion i = true → CaughtUp s) (h : OneInHand s) (hx : exec i s = .next t) : OneInHand t := by
  have hopen {p : Phase} (hp : s.tph = p) (ho : (p.reads || decide (p = .dFlip)) = true) : s.ready ≠ true :=
    fun hready => nomatch (h hready).symm.trans ((decodeOpen_of_tph hp).trans ho)
  cases i with
  | reset => cases hx; nofun
  | start => obtain ⟨-, -, rfl⟩ := execStart_next hx; exact fun _ => rfl
  | waits => obtain ⟨-, rfl⟩ := execWaits_next hx; exact fun _ => by split <;> rfl
  | dpoll => obtain ⟨-, rfl⟩ := execDpoll_next hx; exact fun _ => by split <;> rfl
  | dclr => obtain ⟨-, rfl⟩ := execDclr_next hx; nofun
  | dsync =>
    obtain ⟨hp, b0, b1, n, -, -, ⟨-, rfl⟩ | ⟨-, rfl⟩⟩ := execDsync_next hx <;>
      exact fun hready => absurd hready (hopen hp rfl)
  | dcsum =>
    obtain ⟨hp, acc, ck, n, ⟨-, rfl⟩ | ⟨-, rfl⟩⟩ := execDcsum_next hx <;>
      exact fun hready => absurd hready (hopen hp rfl)
  | dang =>
    obtain ⟨hp, b3, b2, n, -, -, rfl⟩ := execDang_next hx
    exact fun hready => absurd hready (hopen hp rfl)
  | dcab => cases hx
  | dflip => obtain ⟨-, rfl⟩ := execDflip_next hx; exact fun _ => rfl
  | taArm => obtain ⟨-, rfl⟩ := execTaArm_next hx; exact h
  | taRxb b => obtain ⟨-, rfl⟩ | ⟨-, -, -, rfl⟩ | ⟨-, -, -, rfl⟩ := execTaRxb_next hx <;> exact h
  | taTx | cmdXscan => cases hx; exact h
  | rxcIdle => exact service_oneInHand (hc rfl) h (.inl hx)
  | rxcHsok => exact service_oneInHand (hc rfl) h (.inr (.inl hx))
  | rxcHsbad => exact service_oneInHand (hc rfl) h (.inr (.inr (.inl hx)))
  | rxcFrame => exact service_oneInHand (hc rfl) h (.inr (.inr (.inr (.inl hx))))
  | rxcOvr => exact service_oneInHand (hc rfl) h (.inr (.inr (.inr (.inr hx))))
  | rxc => exact service_oneInHand (hc rfl) h (execRxc_next hx)
  | descOk | descBad | frameSynced | frameUnsynced => cases hr

/-- A received byte touches neither the link, nor the signal, nor the phase. -/
theorem execTaRxb_caughtUp {b : Byte} {s t : State} (hc : CaughtUp s) (hx : execTaRxb b s = .next t) : CaughtUp t := by
  obtain ⟨-, rfl⟩ | ⟨-, -, -, rfl⟩ | ⟨-, -, -, rfl⟩ := execTaRxb_next hx <;> exact hc

theorem landAll_caughtUp {bytes : List Byte} {s t : State} (hc : CaughtUp s) (hx : landAll bytes s = .next t) :
    CaughtUp t :=
  landAll_keeps (fun _ _ _ => execTaRxb_caughtUp) bytes s t hc hx

/-- What every decoder operation keeps, the decode of a record keeps. -/
theorem decodeOnce_keeps_exec {P : State → Prop}
    (hstep : ∀ j u v, isRecord j = false → ownStep j = true → j ≠ .reset → servesCompletion j = false →
      received j = [] → P u → exec j u = .next v → P v)
    {s t : State} (hs : P s) (hx : decodeOnce s = .next t) : P t :=
  decodeOnce_keeps
    (fun u v => hstep .dpoll u v rfl rfl nofun rfl rfl) (fun u v => hstep .dclr u v rfl rfl nofun rfl rfl)
    (fun u v => hstep .dsync u v rfl rfl nofun rfl rfl) (fun u v => hstep .dcsum u v rfl rfl nofun rfl rfl)
    (fun u v => hstep .dang u v rfl rfl nofun rfl rfl) (fun u v => hstep .dflip u v rfl rfl nofun rfl rfl) hs hx

/-- Every instruction that serves a completion only where the decoder has caught up keeps the write side at most one
frame ahead. -/
theorem exec_oneInHand {i : Instr} {s t : State} (hc : servesCompletion i = true → CaughtUp s) (h : OneInHand s)
    (hx : exec i s = .next t) : OneInHand t := by
  cases hr : isRecord i with
  | false => exact exec_single_oneInHand hr hc h hx
  | true =>
    obtain ⟨u, v, hu, hv, ht⟩ := exec_record_next hr hx
    have hcu : CaughtUp u := landAll_caughtUp (hc (servesCompletion_of_isRecord hr)) hu
    have hou : OneInHand u :=
      landAll_keeps (fun b _ _ => exec_single_oneInHand (i := .taRxb b) rfl nofun) (received i) s u h hu
    have hov : OneInHand v := by
      unfold serveIfPending at hv
      split at hv
      · exact exec_single_oneInHand (i := .rxc) rfl (fun _ => hcu) hou hv
      · cases hv; exact hou
    rcases ht with rfl | ht
    · exact hov
    · exact decodeOnce_keeps_exec
        (fun j _ _ hjr _ _ hserve _ => exec_single_oneInHand hjr fun hs => nomatch hserve.symm.trans hs) hov ht

/-! ## Where the adapter writes -/

/-- A receive armed on the pool is armed on the buffer at WIDX (R40 item 4). -/
def PoolArmedAtWidx (s : State) : Prop := s.rxa = true → s.rxsp = .pool → s.rxbase = s.widx

theorem RegInv.poolArmedAtWidx {s : State} (h : RegInv s) : PoolArmedAtWidx s := by
  intro ha hsp
  rcases h.armed_kind ha with ⟨-, hdesc, -⟩ | ⟨-, -, hbase, -⟩
  · cases hsp.symm.trans hdesc
  · exact hbase

theorem service_poolArmedAtWidx {s t : State} (h : PoolArmedAtWidx s)
    (hx : execRxcIdle s = .next t ∨ execRxcHsok s = .next t ∨ execRxcHsbad s = .next t ∨ execRxcFrame s = .next t ∨
      execRxcOvr s = .next t) : PoolArmedAtWidx t := by
  rcases hx with hx | hx | hx | hx | hx
  · obtain ⟨-, -, rfl⟩ := execRxcIdle_next hx; exact h
  · obtain ⟨-, -, -, -, rfl⟩ := execRxcHsok_next hx; exact fun _ _ => rfl
  · obtain ⟨-, -, b, -, -, rfl⟩ := execRxcHsbad_next hx; exact h
  · obtain ⟨-, -, -, -, rfl⟩ := execRxcFrame_next hx; exact fun _ _ => rfl
  · obtain ⟨-, -, -, ⟨-, rfl⟩ | ⟨-, -, rfl⟩⟩ := execRxcOvr_next hx
    · exact h
    · exact fun _ _ => rfl

/-- The operations of the task leave WIDX and the receive alone (R20). -/
theorem exec_single_poolArmedAtWidx {i : Instr} {s t : State} (hr : isRecord i = false) (ho : ownStep i = true)
    (h : PoolArmedAtWidx s) (hx : exec i s = .next t) : PoolArmedAtWidx t := by
  cases i with
  | reset => cases hx; nofun
  | start => obtain ⟨-, -, rfl⟩ := execStart_next hx; exact fun _ => nofun
  | taRxb b =>
    obtain ⟨-, rfl⟩ | ⟨ha, -, -, rfl⟩ | ⟨ha, -, -, rfl⟩ := execTaRxb_next hx
    · exact h
    · exact fun _ => h ha
    · exact fun _ => h ha
  | rxcIdle => exact service_poolArmedAtWidx h (.inl hx)
  | rxcHsok => exact service_poolArmedAtWidx h (.inr (.inl hx))
  | rxcHsbad => exact service_poolArmedAtWidx h (.inr (.inr (.inl hx)))
  | rxcFrame => exact service_poolArmedAtWidx h (.inr (.inr (.inr (.inl hx))))
  | rxcOvr => exact service_poolArmedAtWidx h (.inr (.inr (.inr (.inr hx))))
  | rxc => exact service_poolArmedAtWidx h (execRxc_next hx)
  | taArm | taTx | cmdXscan => cases ho
  | descOk | descBad | frameSynced | frameUnsynced => cases hr
  | _ =>
    obtain ⟨-, -, -, hwidx, -, -, hreceive, -⟩ :=
      Proofs.registersAreWrittenOnlyByTheirOperations _ s t hr nofun hx
    obtain ⟨hsp, hbase, -, harmed⟩ := hreceive nofun (by decide)
    obtain ⟨ha, -⟩ := harmed nofun
    rw [PoolArmedAtWidx, ha, hsp, hbase, hwidx (by decide)]
    exact h

theorem exec_poolArmedAtWidx {i : Instr} {s t : State} (ho : ownStep i = true) (h : PoolArmedAtWidx s)
    (hx : exec i s = .next t) : PoolArmedAtWidx t := by
  cases hr : isRecord i with
  | false => exact exec_single_poolArmedAtWidx hr ho h hx
  | true => exact exec_record_keeps (fun _ _ _ hjr hjo _ _ => exec_single_poolArmedAtWidx hjr hjo) hr h hx

/-- The buffer under decode is at WIDX only where both counts have one parity, and an open decode makes them differ
(R163, R246). -/
theorem LockStep.two_ahead_of_torn {s : State} (h : LockStep s) (hat : PoolArmedAtWidx s) (ht : Torn s) :
    nW s = nR s + 2 := by
  obtain ⟨ha, hsp, hbase, hreads⟩ := ht
  have hopen : decodeOpen s = true := by rw [decodeOpen, hreads]; rfl
  have hsame : s.widx.toNat = s.ridx.toNat := congrArg BitVec.toNat ((hat ha hsp).symm.trans hbase)
  rw [h.widx_parity, h.ridx_parity] at hsame
  have hahead := h.ahead_eq
  rw [hopen, Bool.toNat_true] at hahead
  have hle := Bool.toNat_le s.ready
  omega

end Sys2Proof.Safety
end

section
namespace Sys2Proof.Proofs

open Sys2Proof.Machine Sys2Proof.Safety

/-- Settles O51: under P1 the write side stays at most one frame ahead, and a torn state needs it to be two ahead. -/
theorem promptConsumerNeverTears : Obligations.PromptConsumerNeverTears := by
  intro i s t hreg hlock hle hp1 ho hx
  have hlock' : LockStep t := (exec_inStep ⟨hlock, hreg.clear_ready⟩ hx).lock
  have hone : OneInHand t := exec_oneInHand (hp1.caughtUp hlock) (hlock.le_succ_iff.1 hle) hx
  have hle' : nW t ≤ nR t + 1 := hlock'.le_succ_iff.2 hone
  refine ⟨hle', fun htorn => ?_⟩
  have htwo := hlock'.two_ahead_of_torn (exec_poolArmedAtWidx ho hreg.poolArmedAtWidx hx) htorn
  omega

/-- Settles O50: the armed receive is at WIDX, so the two offsets agree while a decode is open. -/
theorem tornReadNeedsTwoFramesAhead : Obligations.TornReadNeedsTwoFramesAhead := by
  intro s hreg hlock htorn
  exact hlock.two_ahead_of_torn hreg.poolArmedAtWidx htorn

/-- Settles O44: RESET is not guarded, and it writes every register that the statement names. -/
theorem resetLeavesTheResetState : Obligations.ResetLeavesTheResetState := by
  intro s
  exact ⟨_, rfl, rfl, rfl, rfl, rfl, rfl, rfl, rfl, rfl, rfl, rfl, rfl, rfl, rfl, rfl, fun _ => rfl, fun _ => rfl,
    rfl, rfl, rfl⟩

end Sys2Proof.Proofs
end

section
/-! SUPPORT. A block that is not started or hears nothing (70_reset_and_hazards.md R250(a), (b), (e)), and what a sequence of
decodes leaves in the counters and the published angle (43_frame_decoder.md R188, R192). -/

namespace Sys2Proof.Safety

open Sys2Proof.Machine

/-! ## A settled block that hears nothing -/

/-- Where no byte arrives a settled block only polls, until RESET or START, whether or not a receive is armed. -/
theorem exec_sameButTrace_of_silent {i : Instr} {s t : State} (hs : s.settled = true) (hr : isRecord i = false)
    (hb : ∀ b, i ≠ .taRxb b) (ho : ownStep i = true) (hreset : i ≠ .reset) (hstart : i ≠ .start)
    (hx : exec i s = .next t) : SameButTrace s t := by
  have he := enabled_of_exec_next hx
  obtain ⟨hpend, -⟩ := (settled_iff s).1 hs
  cases i with
  | waits =>
    obtain ⟨hp, rfl⟩ := execWaits_next hx
    obtain ⟨-, hl⟩ : s.rxcPend = false ∧ s.link ≠ .streaming := by simpa [State.settled, hp] using hs
    simp [SameButTrace, hl, hp]
  | dpoll =>
    obtain ⟨hp, rfl⟩ := execDpoll_next hx
    obtain ⟨-, hready⟩ : s.rxcPend = false ∧ s.ready = false := by simpa [State.settled, hp] using hs
    simp [SameButTrace, hready, hp]
  | taRxb b => exact absurd rfl (hb b)
  | reset => exact absurd rfl hreset
  | start => exact absurd rfl hstart
  | dclr | dsync | dcsum | dang | dflip =>
    have hp := of_decide_eq_true he
    simp [State.settled, hp] at hs
  | dcab => cases he
  | rxcIdle | rxcHsok | rxcHsbad | rxcFrame | rxcOvr | rxc => simp [enabled, hpend] at he
  | taArm | taTx | cmdXscan => cases ho
  | descOk | descBad | frameSynced | frameUnsynced => cases hr

/-- START runs only in T_IDLE (R141). -/
theorem ne_start_of_phase {i : Instr} {s t : State} {p : Phase} (hp : s.tph = p) (hne : p ≠ .tIdle)
    (hx : exec i s = .next t) : i ≠ .start := by
  rintro rfl
  obtain ⟨hidle, -⟩ := execStart_next hx
  exact hne (hp.symm.trans hidle)

/-! ## A sequence of decodes -/

/-- The reference function on the bytes of a frame (R188). -/
def verdictOf (f : List Byte) : Verdict := decodeFrame fun i => f.getD i 0

/-- The decode counters and the published angle are the same. -/
structure SameTally (s t : State) : Prop where
  sync  : t.cntSync = s.cntSync
  csum  : t.cntCsum = s.cntCsum
  acc   : t.cntAcc = s.cntAcc
  angle : t.pubAngleQ6 = s.pubAngleQ6
  valid : t.pubValid = s.pubValid

theorem Tallied.of_same {s₀ s t : State} {vs : List Verdict} (h : Tallied s₀ s vs) (hst : SameTally s t) :
    Tallied s₀ t vs where
  sync := hst.sync.trans h.sync
  csum := hst.csum.trans h.csum
  acc := hst.acc.trans h.acc
  newest := fun q earlier hq => by rw [hst.angle, hst.valid]; exact h.newest q earlier hq
  untouched := fun hq => by rw [hst.angle, hst.valid]; exact h.untouched hq

/-- No decode leaves everything, since the counters fit their width (R32). -/
theorem Tallied.nil {s : State} (h : CountInv s) : Tallied s s [] where
  sync := (Nat.mod_eq_of_lt h.sync).symm
  csum := (Nat.mod_eq_of_lt h.csum).symm
  acc := (Nat.mod_eq_of_lt h.acc).symm
  newest := nofun
  untouched := fun _ => ⟨rfl, rfl⟩

/-- A counter that has counted `n` counts one more (R32). -/
theorem bump_counted {cfg : Config.Params} {c₀ c n : Nat} (h : c = (c₀ + n) % 2 ^ cfg.diagW) :
    bump cfg c = (c₀ + (n + 1)) % 2 ^ cfg.diagW := by
  rw [bump, h, Nat.mod_add_mod, Nat.add_assoc]

/-- One more decode counts its verdict, and an accepted frame is the newest one (R188, R192). -/
theorem Tallied.snoc {s₀ s : State} {vs : List Verdict} (h : Tallied s₀ s vs) (hcfg : s.cfg = s₀.cfg) (v : Verdict) :
    Tallied s₀ (tally s v) (vs ++ [v]) := by
  obtain ⟨hsync, hcsum, hacc, hnew, hold⟩ := h
  cases v with
  | syncFail =>
    constructor <;> simp only [tally, hcfg, List.countP_append, List.reverse_append]
    · exact bump_counted hsync
    · exact hcsum
    · exact hacc
    · exact hnew
    · exact hold
  | csumFail =>
    constructor <;> simp only [tally, hcfg, List.countP_append, List.reverse_append]
    · exact hsync
    · exact bump_counted hcsum
    · exact hacc
    · exact hnew
    · exact hold
  | accept q =>
    constructor <;> simp only [tally, hcfg, List.countP_append, List.reverse_append]
    · exact hsync
    · exact hcsum
    · exact bump_counted hacc
    · rintro q' earlier hq
      cases hq
      exact ⟨rfl, trivial⟩
    · nofun

/-- The rows of a stream of whole frames are decoded one after another, each as the reference function says. -/
theorem runInstrs_frames_tallied {s₀ : State} (frames : List (List Byte)) : ∀ {s : State} {vs : List Verdict},
    P4 frames → StreamReady s → s.cfg = s₀.cfg → Tallied s₀ s vs →
    ∃ t, runInstrs (frames.map frameInstr) s = .next t ∧ StreamReady t ∧ Tallied s₀ t (vs ++ frames.map verdictOf) ∧
      t.cntOvr = s.cntOvr ∧ t.cntHsbad = s.cntHsbad := by
  induction frames with
  | nil => exact fun {s vs} _ hs _ hvs => ⟨s, rfl, hs, by rwa [List.map_nil, List.append_nil], rfl, rfl⟩
  | cons f rest ih =>
    intro s vs hp4 hs hcfg hvs
    obtain ⟨hf, hrest⟩ := List.forall_mem_cons.1 hp4
    obtain ⟨shadow, trace, trace', hx⟩ := hs.receiveFrame_decodes hf
    have hsame (v : Verdict) (u : State) (hu : u = decoded (frameHandedOver s f shadow trace) v trace') :
        SameTally (tally s v) u ∧ u.cfg = s.cfg ∧ u.cntOvr = s.cntOvr ∧ u.cntHsbad = s.cntHsbad := by
      subst hu
      cases v <;> exact ⟨⟨rfl, rfl, rfl, rfl, rfl⟩, rfl, rfl, rfl⟩
    obtain ⟨htally, hcfg', hovr, hhsbad⟩ := hsame (verdictOf f) _ rfl
    obtain ⟨t, ht, hready, hts, hovr', hhsbad'⟩ := ih hrest (hs.next f shadow trace trace' (verdictOf f))
      (hcfg'.trans hcfg) ((hvs.snoc hcfg (verdictOf f)).of_same htally)
    refine ⟨t, ?_, hready, ?_, hovr'.trans hovr, hhsbad'.trans hhsbad⟩
    · rw [List.map_cons, runInstrs_cons_of_next ((exec_frameInstr f s).trans hx)]
      exact ht
    · rwa [List.map_cons, List.append_cons]

end Sys2Proof.Safety
end

section
namespace Sys2Proof.Proofs

open Sys2Proof.Machine Sys2Proof.Safety

/-- Settles O42: by induction on the stream, each row being decoded from a state that is ready for it. -/
theorem everyFrameOfAStreamIsDecoded : Obligations.EveryFrameOfAStreamIsDecoded := by
  intro frames s hp4 hs hcount
  obtain ⟨t, ht, hready, htally, hovr, hhsbad⟩ := runInstrs_frames_tallied frames hp4 hs rfl (.nil hcount)
  refine ⟨t, ht, hready, ?_, hovr, hhsbad⟩
  rintro verdicts rfl
  exact ⟨htally.sync, htally.csum, htally.acc, htally.newest, htally.untouched⟩

/-- Settles O55: each of the three stalls has settled, so what is still enabled changes only the trace. -/
theorem silentBlockStaysWhereItIs : Obligations.SilentBlockStaysWhereItIs := by
  intro i s t ho hreset hx
  refine ⟨fun h hstart => ?_, fun h hb hr => ?_, fun h hb hr => ?_⟩
  · have hsame : SameButTrace s t := by
      obtain ⟨-, hp, ha, hpend, -⟩ := h
      exact exec_sameButTrace_of_settled (by simp [State.settled, hp, hpend]) ha ho hreset hstart hx
    exact ⟨by rw [hsame]; exact h, hsame.sameService⟩
  · have hsame : SameButTrace s t := by
      obtain ⟨hl, hp, -, hpend⟩ := h
      exact exec_sameButTrace_of_silent (by simp [State.settled, hp, hpend, hl]) hr hb ho hreset
        (ne_start_of_phase hp nofun hx) hx
    exact ⟨by rw [hsame]; exact h, hsame.sameService⟩
  · have hsame : SameButTrace s t := by
      obtain ⟨-, hp, -, hpend, hready⟩ := h
      exact exec_sameButTrace_of_silent (by simp [State.settled, hp, hpend, hready]) hr hb ho hreset
        (ne_start_of_phase hp nofun hx) hx
    exact ⟨by rw [hsame]; exact h, hsame.sameService⟩

end Sys2Proof.Proofs
end

section
/-! SUPPORT. The sensor's stream byte by byte (70_reset_and_hazards.md R248, R249), and the relation between what has arrived
of it and the state of a block under P1 to P3 (R243). -/

namespace Sys2Proof.Safety

open Sys2Proof.Machine

/-! ## The stream -/

/-- Byte `i` of frame `j` of the sensor. -/
def Sensor.frame (x : Sensor) (j : Nat) : Nat → Byte := fun i => (x.frames.getD j []).getD i 0

/-- What the first `m` frames decode to (R188). -/
def Sensor.verdicts (x : Sensor) (m : Nat) : List Verdict := (List.range m).map fun j => decodeFrame (x.frame j)

theorem Sensor.verdicts_succ (x : Sensor) (m : Nat) :
    x.verdicts (m + 1) = x.verdicts m ++ [decodeFrame (x.frame m)] := by
  rw [verdicts, List.range_succ, List.map_append]
  rfl

theorem Sensor.map_verdictOf_take (x : Sensor) {m : Nat} (hm : m ≤ x.frames.length) :
    (x.frames.take m).map verdictOf = x.verdicts m := by
  refine List.ext_getElem (by simp [verdicts, hm]) fun j hj _ => ?_
  have hjm : j < x.frames.length := by
    simp only [List.length_map, List.length_take] at hj
    omega
  have hframe : x.frame j = fun i => x.frames[j].getD i 0 :=
    funext fun i => congrArg (List.getD · i 0) (List.getD_eq_getElem x.frames [] hjm)
  simp [verdicts, verdictOf, hframe]

/-- A sensor that sends nothing unasked, answers with the expected echo, and sends whole frames (P3, P4, R144). -/
structure Sensor.Matching (x : Sensor) : Prop where
  quiet : x.early = []
  whole : x.descriptor.length = 7
  echo  : x.descriptor[6]? = some 0x82
  p4    : P4 x.frames

/-- Pieces of one length lie one after another. -/
theorem getElem?_flatten_of_length {α : Type} {w k : Nat} (hk : k < w) (pieces : List (List α)) :
    ∀ j, (∀ l ∈ pieces, l.length = w) → pieces.flatten[w * j + k]? = (pieces.getD j [])[k]? := by
  induction pieces with
  | nil => intro j _; simp
  | cons l rest ih =>
    intro j h
    obtain ⟨hl, hrest⟩ := List.forall_mem_cons.1 h
    cases j with
    | zero => simp [List.getElem?_append_left (hl.symm ▸ hk)]
    | succ j =>
      rw [List.flatten_cons, List.getElem?_append_right (by rw [hl, Nat.mul_succ]; omega), hl,
        show w * (j + 1) + k - w = w * j + k by rw [Nat.mul_succ]; omega, ih j hrest, List.getD_cons_succ]

section Stream

variable {x : Sensor} (hm : x.Matching)
include hm

theorem Sensor.Matching.bytes_eq : x.bytes = x.descriptor ++ x.frames.flatten := by
  rw [Sensor.bytes, hm.quiet, List.nil_append]

theorem Sensor.Matching.length_bytes : x.bytes.length = 7 + 84 * x.frames.length := by
  rw [hm.bytes_eq, List.length_append, hm.whole, List.length_flatten, List.map_congr_left hm.p4, List.map_const',
    List.sum_replicate, smul_eq_mul, Nat.mul_comm]

theorem Sensor.Matching.echo_byte : x.bytes[6]? = some 0x82 := by
  rw [hm.bytes_eq, List.getElem?_append_left (by rw [hm.whole]; decide), hm.echo]

theorem Sensor.Matching.frame_byte {j k : Nat} (hk : k < 84) {b : Byte} (hb : x.bytes[7 + 84 * j + k]? = some b) :
    b = x.frame j k := by
  have hoff : 7 + 84 * j + k - 7 = 84 * j + k := by omega
  rw [hm.bytes_eq, List.getElem?_append_right (by rw [hm.whole]; omega), hm.whole, hoff,
    getElem?_flatten_of_length hk x.frames j hm.p4] at hb
  rw [Sensor.frame, List.getD_eq_getElem?_getD, hb, Option.getD_some]

end Stream

/-! ## The relation -/

/-- A frame has been handed over and its decode is not yet closed. -/
def inHand (s : State) : Bool := s.ready || decodeOpen s

/-- The tests that a frame has passed where the decode is in this phase (R183, R184). -/
def PassedTests (f : Nat → Byte) : Phase → Prop
  | .dCsum => syncOf (f 0) (f 1) = Config.syncValue
  | .dAng => syncOf (f 0) (f 1) = Config.syncValue ∧ bodyXor f = ckrxOf (f 0) (f 1)
  | .tIdle | .tWait | .dPoll | .dClr | .dSync | .dFlip => True

/-- The frames whose verdict has been counted, where `d` decodes have closed: from DFLIP's phase on one more (R187). -/
def counted (d : Nat) : Phase → Nat
  | .dFlip => d + 1
  | .tIdle | .tWait | .dPoll | .dClr | .dSync | .dCsum | .dAng => d

/-- The receive side: of the `n` bytes that arrived, the answer has the expected echo (R144), `k` whole frames have been
handed over (R161), and what came after them stands in the buffer at WIDX (R122). No frame was dropped. -/
structure Receiving (x : Sensor) (s₀ : State) (n k : Nat) (s : State) : Prop where
  cfg       : s.cfg = s₀.cfg
  ovr       : s.cntOvr = s₀.cntOvr
  hsbad     : s.cntHsbad = s₀.cntHsbad
  listens   : s.link ≠ .idle → s.rxa = true ∨ s.rxcPend = true
  idle      : s.link = .idle → n = 0 ∧ k = 0
  awaiting  : s.link = .awaiting → n = s.rxcnt.toNat ∧ k = 0
  answered  : s.rxcPend = true → s.link = .awaiting → s.rxcnt = 7 ∧ Memory.read s.desc 6 = some 0x82
  streaming : s.link = .streaming → n = 7 + 84 * k + s.rxcnt.toNat
  landed    : s.link = .streaming →
    ∀ j, j < s.rxcnt.toNat → Memory.read s.pool (s.widx.toNat + j) = some (x.frame k j)
  full      : s.rxcPend = true → s.link = .streaming → s.rxcnt = 84

/-- The read side: the frame in hand is frame `d`. It stands whole and unraced at RIDX, and has passed the tests before
this phase. -/
structure Decoding (x : Sensor) (d : Nat) (s : State) : Prop where
  one     : OneInHand s
  held    : inHand s = true → FrameAt s (x.frame d)
  passed  : PassedTests (x.frame d) s.tph
  unraced : decodeOpen s = true → s.shadow = []

/-- The block has followed the sensor's first `n` bytes since `s₀`, and has closed `d` decodes. -/
structure Follows (x : Sensor) (s₀ : State) (n d : Nat) (s : State) : Prop where
  block     : BlockInv s
  receiving : Receiving x s₀ n (d + (inHand s).toNat) s
  decoding  : Decoding x d s
  tallied   : Tallied s₀ s (x.verdicts (counted d s.tph))

theorem inHand_of_phase {s : State} {p : Phase} (hp : s.tph = p) (ho : (p.reads || decide (p = .dFlip)) = true) :
    inHand s = true := by
  rw [inHand, (decodeOpen_of_tph hp).trans ho, Bool.or_true]

/-- Outside a stream nothing is in hand (R40). -/
theorem RegInv.inHand_of_not_streaming {s : State} (h : RegInv s) (hl : s.link ≠ .streaming) : inHand s = false := by
  have hready : s.ready = false := Bool.eq_false_of_not_eq_true fun hr => hl (h.ready_streaming hr)
  rw [inHand, hready, Bool.false_or]
  have hloop : ¬ 2 ≤ s.tph.code.toNat := fun h2 => hl (h.loop_streaming h2)
  cases hp : s.tph with
  | tIdle | tWait => exact decodeOpen_of_tph hp
  | _ => exact absurd (by rw [hp]; decide) hloop

theorem CaughtUp.inHand_eq {s : State} (h : CaughtUp s) (hl : s.link = .streaming) : inHand s = false := by
  obtain ⟨hready, hclosed⟩ := h hl
  rw [inHand, hready, hclosed]
  rfl

/-- The two offsets agree exactly where nothing is in hand (R163). -/
theorem DataInv.widx_eq_ridx_iff {s : State} (h : DataInv s) (hone : OneInHand s) :
    s.widx = s.ridx ↔ inHand s = false := by
  rw [h.lock_step, inHand]
  unfold OneInHand at hone
  cases hr : s.ready with
  | false => rw [Bool.false_or]; exact eq_comm
  | true => simp [hone hr]

/-- A byte of the buffer at WIDX is none of the buffer at RIDX while a frame is in hand (R163). -/
theorem BlockInv.outside_in_hand {s : State} (h : BlockInv s) (hone : OneInHand s) (hin : inHand s = true) {k : Nat}
    (hk : k < 84) : ¬ (s.ridx.toNat ≤ s.widx.toNat + k ∧ s.widx.toNat + k < s.ridx.toNat + 84) := by
  have hne : s.widx ≠ s.ridx := fun he => nomatch hin.symm.trans ((h.data.widx_eq_ridx_iff hone).1 he)
  obtain hw | hw := h.regs.widx_legal <;> obtain hr | hr := h.regs.ridx_legal <;> rw [hw, hr] at hne ⊢
  · exact absurd rfl hne
  · change ¬ (84 ≤ 0 + k ∧ 0 + k < 84 + 84)
    omega
  · change ¬ (0 ≤ 84 + k ∧ 84 + k < 0 + 84)
    omega
  · exact absurd rfl hne

end Sys2Proof.Safety
end

section
/-! SUPPORT. Every operation keeps the relation with the sensor's stream, where a completion is served only by a decoder that
has caught up (70_reset_and_hazards.md R243, R244). -/

namespace Sys2Proof.Safety

open Sys2Proof.Machine

section Following

variable {x : Sensor} {s₀ s t : State} {n d : Nat}

/-! ## The task -/

/-- The task moves and no verdict falls: no decode is opened or closed. -/
theorem Follows.moves (h : Follows x s₀ n d s) {p q : Phase} (hp : s.tph = p) (tr : List Event)
    (hblock : BlockInv { s with tph := q, trace := tr })
    (hpq : (q.reads || decide (q = .dFlip)) = (p.reads || decide (p = .dFlip))) (hcount : counted d p = counted d q)
    (hpassed : PassedTests (x.frame d) q) : Follows x s₀ n d { s with tph := q, trace := tr } := by
  have hopen : decodeOpen { s with tph := q, trace := tr } = decodeOpen s := hpq.trans (decodeOpen_of_tph hp).symm
  have hin : inHand { s with tph := q, trace := tr } = inHand s := congrArg (s.ready || ·) hopen
  obtain ⟨-, hrec, ⟨hone, hheld, -, hunraced⟩, htally⟩ := h
  rw [hp, hcount] at htally
  exact ⟨hblock, hin ▸ { hrec with },
    ⟨fun hr => hopen.trans (hone hr), fun hi => hheld (hin ▸ hi), hpassed, fun ho => hunraced (hopen ▸ ho)⟩,
    { htally with }⟩

/-- Where bytes are still read the verdict has not fallen. -/
theorem counted_of_reads {p : Phase} (h : p.reads = true) (d : Nat) : counted d p = d := by
  cases p with
  | dFlip => cases h
  | _ => rfl

/-- The verdict of the frame in hand falls, and the decode waits for DFLIP. -/
theorem Follows.judged (h : Follows x s₀ n d s) {p : Phase} (hp : s.tph = p) (hreads : p.reads = true) {v : Verdict}
    (hv : decodeFrame (x.frame d) = v) (tr : List Event)
    (hblock : BlockInv { tally s v with tph := .dFlip, trace := tr }) :
    Follows x s₀ n d { tally s v with tph := .dFlip, trace := tr } := by
  have hopen : decodeOpen s = true := by rw [decodeOpen_of_tph hp, hreads]; rfl
  have hin : inHand s = true := by rw [inHand, hopen, Bool.or_true]
  obtain ⟨-, hrec, ⟨hone, hheld, -, hunraced⟩, htally⟩ := h
  have hnext := htally.snoc hrec.cfg v
  rw [hp, counted_of_reads hreads, ← hv, ← x.verdicts_succ, hv] at hnext
  have hclosed : s.ready ≠ true := fun hr => nomatch hopen.symm.trans (hone hr)
  have hin' : inHand { tally s v with tph := .dFlip, trace := tr } = inHand s :=
    hin.symm ▸ inHand_of_phase (p := .dFlip) rfl rfl
  cases v <;>
    exact ⟨hblock, hin' ▸ { hrec with },
      ⟨fun hr => absurd hr hclosed, fun _ => hheld hin, trivial, fun _ => hunraced hopen⟩, { hnext with }⟩

theorem execWaits_follows (h : Follows x s₀ n d s) (hx : execWaits s = .next t) : Follows x s₀ n d t := by
  have hblock := execWaits_keeps h.block hx
  obtain ⟨hp, rfl⟩ := execWaits_next hx
  by_cases hl : s.link = .streaming
  · rw [if_pos hl] at hblock ⊢
    exact h.moves hp _ hblock rfl rfl trivial
  · rw [if_neg hl] at hblock ⊢
    exact h.moves hp _ hblock rfl rfl trivial

theorem execDpoll_follows (h : Follows x s₀ n d s) (hx : execDpoll s = .next t) : Follows x s₀ n d t := by
  have hblock := execDpoll_keeps h.block hx
  obtain ⟨hp, rfl⟩ := execDpoll_next hx
  by_cases hr : s.ready = true
  · rw [if_pos hr] at hblock ⊢
    exact h.moves hp _ hblock rfl rfl trivial
  · rw [if_neg hr] at hblock ⊢
    exact h.moves hp _ hblock rfl rfl trivial

/-- The frame that was handed over is the one that the decode opens on (R182). -/
theorem execDclr_follows (h : Follows x s₀ n d s) (hx : execDclr s = .next t) : Follows x s₀ n d t := by
  have hblock := execDclr_keeps h.block hx
  obtain ⟨hp, rfl⟩ := execDclr_next hx
  have hin : inHand s = true := by rw [inHand, h.block.regs.clear_ready hp, Bool.true_or]
  obtain ⟨-, hrec, ⟨-, hheld, -, -⟩, htally⟩ := h
  rw [hp] at htally
  rw [hin] at hrec
  exact ⟨hblock, { hrec with }, ⟨nofun, fun _ => hheld hin, trivial, fun _ => rfl⟩, { htally with }⟩

/-- What an open decode reads is the frame in hand (R188). -/
theorem Follows.reads_frame (h : Follows x s₀ n d s) {p : Phase} (hp : s.tph = p)
    (ho : (p.reads || decide (p = .dFlip)) = true) : FrameAt s (x.frame d) ∧ Unraced s := by
  obtain ⟨-, -, ⟨-, hheld, -, hunraced⟩, -⟩ := h
  refine ⟨hheld (inHand_of_phase hp ho), ?_⟩
  rw [Unraced, hunraced ((decodeOpen_of_tph hp).trans ho)]
  nofun

theorem execDsync_follows (h : Follows x s₀ n d s) (hx : execDsync s = .next t) : Follows x s₀ n d t := by
  have hblock := execDsync_keeps h.block hx
  obtain ⟨hp, -⟩ := execDsync_next hx
  obtain ⟨hf, hu⟩ := h.reads_frame hp rfl
  by_cases hs : syncOf (x.frame d 0) (x.frame d 1) = Config.syncValue
  · cases (execDsync_in_sync hf hu hp hs).symm.trans hx
    exact h.moves hp _ hblock rfl rfl hs
  · cases (execDsync_out_of_sync hf hu hp hs).symm.trans hx
    exact h.judged hp rfl (decodeFrame_out_of_sync hs) _ hblock

theorem execDcsum_follows (h : Follows x s₀ n d s) (hx : execDcsum s = .next t) : Follows x s₀ n d t := by
  have hblock := execDcsum_keeps h.block hx
  obtain ⟨hp, -⟩ := execDcsum_next hx
  obtain ⟨hf, hu⟩ := h.reads_frame hp rfl
  have hs : syncOf (x.frame d 0) (x.frame d 1) = Config.syncValue := by
    have hpassed := h.decoding.passed
    rwa [hp] at hpassed
  by_cases hc : bodyXor (x.frame d) = ckrxOf (x.frame d 0) (x.frame d 1)
  · cases (execDcsum_matching hf hu hp hc).symm.trans hx
    exact h.moves hp _ hblock rfl rfl ⟨hs, hc⟩
  · cases (execDcsum_mismatching hf hu hp hc).symm.trans hx
    exact h.judged hp rfl (decodeFrame_mismatching hs hc) _ hblock

theorem execDang_follows (h : Follows x s₀ n d s) (hx : execDang s = .next t) : Follows x s₀ n d t := by
  have hblock := execDang_keeps h.block hx
  obtain ⟨hp, -⟩ := execDang_next hx
  obtain ⟨hf, hu⟩ := h.reads_frame hp rfl
  obtain ⟨hs, hc⟩ : syncOf (x.frame d 0) (x.frame d 1) = Config.syncValue ∧
      bodyXor (x.frame d) = ckrxOf (x.frame d 0) (x.frame d 1) := by
    have hpassed := h.decoding.passed
    rwa [hp] at hpassed
  cases (execDang_publishes hf hu hp).symm.trans hx
  exact h.judged hp rfl (decodeFrame_matching hs hc) _ hblock

/-- One more decode is closed, and nothing is left in hand (R187). -/
theorem execDflip_follows (h : Follows x s₀ n d s) (hx : execDflip s = .next t) : Follows x s₀ n (d + 1) t := by
  have hblock := execDflip_keeps h.block hx
  obtain ⟨hp, rfl⟩ := execDflip_next hx
  obtain ⟨-, hrec, ⟨hone, -, -, -⟩, htally⟩ := h
  rw [inHand_of_phase hp rfl] at hrec
  rw [hp] at htally
  have hready : s.ready = false := Bool.eq_false_of_not_eq_true fun hr =>
    nomatch (hone hr).symm.trans (decodeOpen_of_tph hp)
  have hin : inHand { s with
      ridx := flipOffset s.ridx, tph := .dPoll, shadow := [], trace := s.trace ++ [.line .dflip] } = false :=
    congrArg (· || false) hready
  exact ⟨hblock, hin ▸ { hrec with }, ⟨fun _ => rfl, fun hi => (nomatch hin.symm.trans hi), trivial, fun _ => rfl⟩,
    { htally with }⟩

/-! ## The link and the service of a completion -/

/-- START arms the receive of the answer before its first byte (R141, R248). -/
theorem execStart_follows (h : Follows x s₀ n d s) (hx : execStart s = .next t) : Follows x s₀ n d t := by
  have hblock := execStart_keeps h.block hx
  obtain ⟨hp, -, rfl⟩ := execStart_next hx
  have hl : s.link = .idle := h.block.regs.idle_iff.1 hp
  have hpend : s.rxcPend ≠ true := fun hpe => h.block.regs.pending_started hpe hl
  have hin : inHand s = false := h.block.regs.inHand_of_not_streaming (by rw [hl]; nofun)
  obtain ⟨-, hrec, ⟨hone, hheld, -, -⟩, htally⟩ := h
  have hin' : inHand { s with
      link := .awaiting, tph := .tWait, rxa := true, rxsp := .desc, rxbase := 0, rxlen := 7, rxcnt := 0
      trace := s.trace ++ [.line .start, .tx Config.cmdBytes, .arm .desc 0 7] } = inHand s :=
    congrArg (s.ready || ·) (decodeOpen_of_tph hp).symm
  rw [hp] at htally
  refine ⟨hblock, hin' ▸ { hrec with
      listens := fun _ => .inl rfl
      idle := nofun
      awaiting := fun _ => hrec.idle hl
      answered := fun hpe => absurd hpe hpend
      streaming := nofun
      landed := nofun
      full := nofun }, ⟨fun _ => rfl, fun hi => (nomatch (hin'.trans hin).symm.trans hi), trivial, nofun⟩,
    { htally with }⟩

/-- The answer has the expected echo, so the first frame is armed at WIDX (R144). -/
theorem execRxcHsok_follows (h : Follows x s₀ n d s) (hx : execRxcHsok s = .next t) : Follows x s₀ n d t := by
  have hblock := execRxcHsok_keeps h.block hx
  obtain ⟨hpend, hl, -, -, rfl⟩ := execRxcHsok_next hx
  obtain ⟨-, hrec, hdec, htally⟩ := h
  obtain ⟨hn, hk⟩ := hrec.awaiting hl
  obtain ⟨hcnt, -⟩ := hrec.answered hpend hl
  rw [hcnt] at hn
  exact ⟨hblock, { hrec with
      listens := fun _ => .inl rfl
      idle := nofun
      awaiting := nofun
      answered := nofun
      streaming := fun _ => hk.symm ▸ hn
      landed := fun _ j hj => absurd hj (Nat.not_lt_zero j)
      full := nofun }, { hdec with }, { htally with }⟩

/-- The decoder has caught up, so the frame that fills the buffer at WIDX = RIDX is the next one in hand (R161). -/
theorem execRxcFrame_follows (h : Follows x s₀ n d s) (hc : CaughtUp s) (hx : execRxcFrame s = .next t) :
    Follows x s₀ n d t := by
  have hblock := execRxcFrame_keeps h.block hx
  obtain ⟨hpend, hl, -, -, rfl⟩ := execRxcFrame_next hx
  obtain ⟨-, hclosed⟩ := hc hl
  have hin := hc.inHand_eq hl
  obtain ⟨hinv, hrec, hdec, htally⟩ := h
  rw [hin] at hrec
  have hcnt := hrec.full hpend hl
  have hn := hrec.streaming hl
  have hlanded := hrec.landed hl
  have hsame : s.widx = s.ridx := (hinv.data.widx_eq_ridx_iff hdec.one).2 hin
  rw [hcnt, hsame] at hlanded
  rw [hcnt] at hn
  refine ⟨hblock, { hrec with
      listens := fun _ => .inl rfl
      idle := fun hi => nomatch hl.symm.trans hi
      awaiting := fun ha => nomatch hl.symm.trans ha
      answered := nofun
      streaming := fun _ => hn
      landed := fun _ j hj => absurd hj (Nat.not_lt_zero j)
      full := nofun }, { hdec with one := fun _ => hclosed, held := fun _ => ⟨?_, hlanded⟩ }, { htally with }⟩
  exact Nat.add_le_add_right (legal_toNat_le hinv.regs.ridx_legal) 84

/-- The variants of RXC that drop or only clear are not selected (R160). -/
theorem service_follows (h : Follows x s₀ n d s) (hc : CaughtUp s)
    (hx : execRxcIdle s = .next t ∨ execRxcHsok s = .next t ∨ execRxcHsbad s = .next t ∨ execRxcFrame s = .next t ∨
      execRxcOvr s = .next t) : Follows x s₀ n d t := by
  rcases hx with hx | hx | hx | hx | hx
  · obtain ⟨hpend, hl, -⟩ := execRxcIdle_next hx
    exact absurd hl (h.block.regs.pending_started hpend)
  · exact execRxcHsok_follows h hx
  · obtain ⟨hpend, hl, b, hb, hne, -⟩ := execRxcHsbad_next hx
    obtain ⟨-, hecho⟩ := h.receiving.answered hpend hl
    exact absurd (Option.some.inj (hb.symm.trans hecho)) hne
  · exact execRxcFrame_follows h hc hx
  · obtain ⟨-, hl, hready, -⟩ := execRxcOvr_next hx
    obtain ⟨hnone, -⟩ := hc hl
    cases hnone.symm.trans hready

/-! ## A received byte -/

/-- A store outside the buffer at RIDX leaves the frame in hand. -/
theorem FrameAt.write {f : Nat → Byte} (h : FrameAt s f) {a : Nat}
    (ha : ¬ (s.ridx.toNat ≤ a ∧ a < s.ridx.toNat + 84)) (b : Byte) :
    FrameAt { s with pool := Memory.write s.pool a b } f := by
  obtain ⟨hin, hread⟩ := h
  refine ⟨hin, fun i hi => (Memory.read_write_other s.pool b ?_).trans (hread i hi)⟩
  change s.ridx.toNat + i ≠ a
  omega

/-- A byte that lands leaves the receive armed or its completion pending (R122). -/
theorem armed_or_pending (c : Prop) [Decidable c] (pend : Bool) :
    (if c then false else true) = true ∨ (if c then true else pend) = true := by
  split
  · exact .inr rfl
  · exact .inl rfl

/-- With nothing pending before, a completion is that of the last byte (R122). -/
theorem last_of_pending {c : Prop} [Decidable c] {pend : Bool} (hpend : pend = false)
    (h : (if c then true else pend) = true) : c := by
  by_contra hc
  rw [if_neg hc, hpend] at h
  cases h

section Byte

variable (hm : x.Matching) (h : Follows x s₀ n d s) {b : Byte} (hb : x.bytes[n]? = some b) (ha : s.rxa = true)
include hm h hb ha

/-- In a stream the next byte is the next one of the frame after those handed over, and falls outside the one in hand. -/
theorem execTaRxb_follows_frame (hl : s.link = .streaming) (hsp : s.rxsp = .pool) (hbase : s.rxbase = s.widx)
    (hlen : s.rxlen = 84) (hx : execTaRxb b s = .next t) : Follows x s₀ (n + 1) d t := by
  have hblock := (execTaRxb_safe h.block b).keeps t hx
  obtain ⟨hpend, hlt⟩ := h.block.regs.armed_open ha
  have hsucc := rxcnt_succ_toNat hlt
  obtain ⟨hinv, hrec, hdec, htally⟩ := h
  have h84 : s.rxcnt.toNat < 84 := by rwa [hlen] at hlt
  have hn := hrec.streaming hl
  have hnext : b = x.frame (d + (inHand s).toNat) s.rxcnt.toNat := hm.frame_byte h84 (hn ▸ hb)
  have hout (hi : inHand s = true) :
      ¬ (s.ridx.toNat ≤ s.rxbase.toNat + s.rxcnt.toNat ∧ s.rxbase.toNat + s.rxcnt.toNat < s.ridx.toNat + 84) :=
    hbase ▸ hinv.outside_in_hand hdec.one hi h84
  obtain ⟨hua, -⟩ | ⟨-, -, -, rfl⟩ | ⟨-, hdesc, -⟩ := execTaRxb_next hx
  · cases hua.symm.trans ha
  · refine ⟨hblock, { hrec with
        listens := fun _ => ?_
        idle := fun hi => nomatch hl.symm.trans hi
        awaiting := fun hw => nomatch hl.symm.trans hw
        answered := fun _ hw => nomatch hl.symm.trans hw
        streaming := fun _ => ?_
        landed := fun _ j hj => ?_
        full := fun hp _ => ?_ },
      { hdec with held := fun hi => (hdec.held hi).write (hout hi) b, unraced := fun ho => ?_ }, { htally with }⟩
    · exact armed_or_pending _ _
    · change n + 1 = 7 + 84 * (d + (inHand s).toNat) + (s.rxcnt + 1).toNat
      omega
    · dsimp only at hj ⊢
      rw [hbase]
      rcases Nat.lt_succ_iff_lt_or_eq.1 (hsucc ▸ hj) with hj | rfl
      · rw [Memory.read_write_other _ b (by omega)]
        exact hrec.landed hl j hj
      · rw [Memory.read_write_same, hnext]
        rfl
    · exact (last_of_pending hpend hp).trans hlen
    · have hi : inHand s = true := by rw [inHand, show decodeOpen s = true from ho, Bool.or_true]
      refine (if_neg fun ht => ?_).trans (hdec.unraced ho)
      obtain ⟨-, hrange⟩ := (tears_iff s _).1 ht
      exact hout hi hrange
  · cases hsp.symm.trans hdesc

/-- While the answer is awaited the next byte is the next one of it, the seventh the echo. -/
theorem execTaRxb_follows_answer (hl : s.link = .awaiting) (hsp : s.rxsp = .desc) (hlen : s.rxlen = 7)
    (hx : execTaRxb b s = .next t) : Follows x s₀ (n + 1) d t := by
  have hblock := (execTaRxb_safe h.block b).keeps t hx
  obtain ⟨hpend, hlt⟩ := h.block.regs.armed_open ha
  have hsucc := rxcnt_succ_toNat hlt
  obtain ⟨-, hrec, hdec, htally⟩ := h
  obtain ⟨hn, hk⟩ := hrec.awaiting hl
  obtain ⟨hua, -⟩ | ⟨-, hpool, -⟩ | ⟨-, -, -, rfl⟩ := execTaRxb_next hx
  · cases hua.symm.trans ha
  · cases hsp.symm.trans hpool
  · refine ⟨hblock, { hrec with
        listens := fun _ => ?_
        idle := fun hi => nomatch hl.symm.trans hi
        awaiting := fun _ => ⟨?_, hk⟩
        answered := fun hp _ => ?_
        streaming := fun hs => nomatch hl.symm.trans hs
        landed := fun hs => nomatch hl.symm.trans hs
        full := fun _ hs => nomatch hl.symm.trans hs }, { hdec with }, { htally with }⟩
    · exact armed_or_pending _ _
    · rw [hn, hsucc]
    · have hlast := last_of_pending hpend hp
      rw [hlast, hlen] at hsucc
      have hsix : s.rxcnt.toNat = 6 := Nat.succ.inj hsucc.symm
      rw [hn, hsix, hm.echo_byte] at hb
      refine ⟨hlast.trans hlen, ?_⟩
      dsimp only
      rw [hsix, Memory.read_write_same, hb]

/-- A byte on the armed receive is the stream's next one: it lands in its place in the answer or in its frame (R122). -/
theorem execTaRxb_follows (hx : execTaRxb b s = .next t) : Follows x s₀ (n + 1) d t := by
  rcases h.block.regs.armed_kind ha with ⟨hl, hsp, -, hlen⟩ | ⟨hl, hsp, hbase, hlen⟩
  · exact execTaRxb_follows_answer hm h hb ha hl hsp hlen hx
  · exact execTaRxb_follows_frame hm h hb ha hl hsp hbase hlen hx

end Byte

end Following

end Sys2Proof.Safety
end

section
/-! SUPPORT. A whole run under P1 to P3 follows the sensor's stream and loses no byte of it (70_reset_and_hazards.md R243). -/

namespace Sys2Proof.Safety

open Sys2Proof.Machine

/-! ## Pieces of the stream -/

theorem isPrefix_drop_append {α : Type} {l a b : List α} {n : Nat} (h : a ++ b <+: l.drop n) :
    a <+: l.drop n ∧ b <+: l.drop (n + a.length) := by
  obtain ⟨c, hc⟩ := h
  refine ⟨⟨b ++ c, by rw [← hc, List.append_assoc]⟩, c, ?_⟩
  rw [← List.drop_drop, ← hc, List.append_assoc, List.drop_left]

theorem getElem?_of_cons_isPrefix_drop {α : Type} {l rest : List α} {b : α} {n : Nat} (h : b :: rest <+: l.drop n) :
    l[n]? = some b := by
  obtain ⟨c, hc⟩ := h
  have hhead : (l.drop n)[0]? = some b := by rw [← hc]; rfl
  rwa [List.getElem?_drop] at hhead

/-! ## One operation -/

/-- The block has followed the sensor's first `n` bytes since `s₀`, whatever it has decoded of them so far. -/
def Tracked (x : Sensor) (s₀ : State) (n : Nat) (s : State) : Prop := ∃ d, Follows x s₀ n d s

section Tracking

variable {x : Sensor} {s₀ s t : State} {n : Nat}

/-- A single operation that receives nothing. -/
theorem exec_single_tracked {i : Instr} (hr : isRecord i = false) (ho : ownStep i = true) (hreset : i ≠ .reset)
    (hb : received i = []) (hc : servesCompletion i = true → CaughtUp s) (h : Tracked x s₀ n s)
    (hx : exec i s = .next t) : Tracked x s₀ n t := by
  obtain ⟨d, h⟩ := h
  cases i with
  | reset => exact absurd rfl hreset
  | start => exact ⟨d, execStart_follows h hx⟩
  | waits => exact ⟨d, execWaits_follows h hx⟩
  | dpoll => exact ⟨d, execDpoll_follows h hx⟩
  | dclr => exact ⟨d, execDclr_follows h hx⟩
  | dsync => exact ⟨d, execDsync_follows h hx⟩
  | dcsum => exact ⟨d, execDcsum_follows h hx⟩
  | dang => exact ⟨d, execDang_follows h hx⟩
  | dcab => cases hx
  | dflip => exact ⟨d + 1, execDflip_follows h hx⟩
  | taRxb b => cases hb
  | rxcIdle => exact ⟨d, service_follows h (hc rfl) (.inl hx)⟩
  | rxcHsok => exact ⟨d, service_follows h (hc rfl) (.inr (.inl hx))⟩
  | rxcHsbad => exact ⟨d, service_follows h (hc rfl) (.inr (.inr (.inl hx)))⟩
  | rxcFrame => exact ⟨d, service_follows h (hc rfl) (.inr (.inr (.inr (.inl hx))))⟩
  | rxcOvr => exact ⟨d, service_follows h (hc rfl) (.inr (.inr (.inr (.inr hx))))⟩
  | rxc => exact ⟨d, service_follows h (hc rfl) (execRxc_next hx)⟩
  | taArm | taTx | cmdXscan => cases ho
  | descOk | descBad | frameSynced | frameUnsynced => cases hr

/-- The next bytes of the stream, as many as fit in the armed receive. -/
theorem landAll_tracked (hm : x.Matching) (bytes : List Byte) : ∀ {s t : State} {n : Nat}, bytes <+: x.bytes.drop n →
    (bytes ≠ [] → s.rxa = true ∧ s.rxcnt.toNat + bytes.length ≤ s.rxlen.toNat) → Tracked x s₀ n s →
    landAll bytes s = .next t → Tracked x s₀ (n + bytes.length) t := by
  induction bytes with
  | nil => intro s t n _ _ h hx; cases hx; exact h
  | cons b rest ih =>
    intro s t n hpre hfit h hx
    obtain ⟨ha, hlen⟩ := hfit nofun
    obtain ⟨d, h⟩ := h
    obtain ⟨u, hu, hx⟩ := andThen_eq_next.1 hx
    have hfollows := execTaRxb_follows hm h (getElem?_of_cons_isPrefix_drop hpre) ha hu
    obtain ⟨-, hrxlen, hcnt, hmore⟩ := execTaRxb_armed ha hu
    have hsucc := rxcnt_succ_toNat (h.block.regs.armed_open ha).2
    obtain ⟨-, hrest⟩ := isPrefix_drop_append (a := [b]) hpre
    rw [List.length_cons] at hlen ⊢
    rw [Nat.add_comm rest.length, ← Nat.add_assoc]
    refine ih hrest (fun hne => ?_) ⟨d, hfollows⟩ hx
    have hpos := List.length_pos_iff.2 hne
    rw [hcnt, hrxlen, hsucc]
    refine ⟨hmore fun he => ?_, by omega⟩
    rw [he] at hsucc
    omega

/-- Any operation of XRX's own but RESET, with bytes that fit and a decoder that has caught up where it serves. -/
theorem exec_tracked (hm : x.Matching) {i : Instr} (ho : ownStep i = true) (hreset : i ≠ .reset)
    (hc : servesCompletion i = true → CaughtUp s) (hpre : received i <+: x.bytes.drop n)
    (hfit : received i ≠ [] → s.rxa = true ∧ s.rxcnt.toNat + (received i).length ≤ s.rxlen.toNat)
    (h : Tracked x s₀ n s) (hx : exec i s = .next t) : Tracked x s₀ (n + (received i).length) t := by
  cases hr : isRecord i with
  | false =>
    by_cases hbyte : ∃ b, i = .taRxb b
    · obtain ⟨b, rfl⟩ := hbyte
      obtain ⟨ha, -⟩ := hfit nofun
      obtain ⟨d, h⟩ := h
      exact ⟨d, execTaRxb_follows hm h (getElem?_of_cons_isPrefix_drop hpre) ha hx⟩
    · have hnone : received i = [] := by
        cases i with
        | taRxb b => exact absurd ⟨b, rfl⟩ hbyte
        | descOk | descBad | frameSynced | frameUnsynced => cases hr
        | _ => rfl
      rw [hnone]
      exact exec_single_tracked hr ho hreset hnone hc h hx
  | true =>
    obtain ⟨u, v, hu, hv, ht⟩ := exec_record_next hr hx
    have hcu : CaughtUp u := landAll_caughtUp (hc (servesCompletion_of_isRecord hr)) hu
    have htu := landAll_tracked hm (received i) hpre hfit h hu
    have htv : Tracked x s₀ (n + (received i).length) v := by
      unfold serveIfPending at hv
      split at hv
      · exact exec_single_tracked (i := .rxc) rfl rfl nofun rfl (fun _ => hcu) htu hv
      · cases hv; exact htu
    rcases ht with rfl | ht
    · exact htv
    · exact decodeOnce_keeps_exec
        (fun j _ _ hjr hjo hjreset hserve hnone =>
          exec_single_tracked hjr hjo hjreset hnone fun hs => nomatch hserve.symm.trans hs) htv ht

/-! ## The run -/

/-- Under P2 and P3 the bytes of an operation fit in an armed receive. -/
theorem Tracked.fits {i : Instr} (h : Tracked x s₀ n s) (hp2 : P2 s i) (hp3 : P3 x s i) (hb : received i ≠ []) :
    s.rxa = true ∧ s.rxcnt.toNat + (received i).length ≤ s.rxlen.toNat := by
  obtain ⟨d, h⟩ := h
  obtain ⟨hpend, hfits⟩ := hp2 hb
  obtain ⟨-, hstarted⟩ := hp3
  rcases h.receiving.listens (hstarted hb) with ha | hp
  · exact ⟨ha, hfits ha⟩
  · cases hpend.symm.trans hp

/-- A run under P1 to P3 follows the stream and loses no byte. -/
theorem runInstrs_tracked (hm : x.Matching) (is : List Instr) : ∀ {s t : State} {n : Nat},
    (∀ i ∈ is, ownStep i = true ∧ i ≠ .reset) → Along P1 is s → Along P2 is s → Along (P3 x) is s →
    is.flatMap received <+: x.bytes.drop n → LockStep s → Tracked x s₀ n s → runInstrs is s = .next t →
    Tracked x s₀ (n + (is.flatMap received).length) t ∧ EmitsNoLost s t := by
  induction is with
  | nil => intro s t n _ _ _ _ _ _ h hx; cases hx; exact ⟨h, EmitsNoLost.refl s⟩
  | cons i rest ih =>
    intro s t n hown hp1 hp2 hp3 hpre hlock h hx
    obtain ⟨⟨ho, hreset⟩, hown⟩ := List.forall_mem_cons.1 hown
    obtain ⟨hp1, hrest1⟩ := hp1
    obtain ⟨hp2, hrest2⟩ := hp2
    obtain ⟨hp3, hrest3⟩ := hp3
    rw [List.flatMap_cons] at hpre
    obtain ⟨hfirst, hmore⟩ := isPrefix_drop_append hpre
    obtain ⟨u, hu, hx⟩ := andThen_eq_next.1 hx
    have hfit := h.fits hp2 hp3
    have hclear : s.tph = .dClr → s.ready = true := by
      obtain ⟨d, h⟩ := h
      exact h.block.regs.clear_ready
    have htu := exec_tracked hm ho hreset (hp1.caughtUp hlock) hfirst hfit h hu
    obtain ⟨htt, hnolost⟩ := ih hown (hrest1 u hu) (hrest2 u hu) (hrest3 u hu) hmore
      (exec_inStep ⟨hlock, hclear⟩ hu).lock htu hx
    rw [List.flatMap_cons, List.length_append, ← Nat.add_assoc]
    exact ⟨htt, (exec_emitsNoLost hfit hu).trans hnolost⟩

end Tracking

/-- A block that is not started has followed nothing yet. -/
theorem Follows.start {s : State} (x : Sensor) (h : BlockInv s) (hl : s.link = .idle) : Follows x s 0 0 s := by
  have htph : s.tph = .tIdle := h.regs.idle_iff.2 hl
  have hin : inHand s = false := h.regs.inHand_of_not_streaming (by rw [hl]; nofun)
  refine ⟨h, ?_, ⟨fun _ => decodeOpen_of_tph htph, fun hi => (nomatch hin.symm.trans hi), by rw [htph]; trivial,
    fun ho => nomatch (decodeOpen_of_tph htph).symm.trans ho⟩, by rw [htph]; exact Tallied.nil h.counts⟩
  exact
    { cfg := rfl
      ovr := rfl
      hsbad := rfl
      listens := fun hne => absurd hl hne
      idle := fun _ => ⟨rfl, by rw [hin]; rfl⟩
      awaiting := fun ha => nomatch hl.symm.trans ha
      answered := fun _ ha => nomatch hl.symm.trans ha
      streaming := fun hs => nomatch hl.symm.trans hs
      landed := fun hs => nomatch hl.symm.trans hs
      full := fun _ hs => nomatch hl.symm.trans hs }

/-- How far an armed receive may be filled, by the link (R40 items 3 and 4). -/
theorem RegInv.rxcnt_lt_of_armed {s : State} (h : RegInv s) (ha : s.rxa = true) :
    (s.link = .awaiting ∧ s.rxcnt.toNat < 7) ∨ (s.link = .streaming ∧ s.rxcnt.toNat < 84) := by
  obtain ⟨-, hlt⟩ := h.armed_open ha
  rcases h.armed_kind ha with ⟨hl, -, -, hlen⟩ | ⟨hl, -, -, hlen⟩ <;> rw [hlen] at hlt
  · exact .inl ⟨hl, hlt⟩
  · exact .inr ⟨hl, hlt⟩

/-- A settled block has closed a decode for each whole frame that arrived. -/
theorem Follows.decoded_of_settled {x : Sensor} {s₀ s : State} {n d : Nat} (h : Follows x s₀ n d s)
    (hs : s.settled = true) : (n - 7) / 84 = d ∧ counted d s.tph = d := by
  obtain ⟨hinv, hrec, hdec, -⟩ := h
  obtain ⟨hpend, -⟩ := (settled_iff s).1 hs
  have hnone : inHand s = false ∧ counted d s.tph = d := by
    unfold State.settled at hs
    cases hp : s.tph with
    | tIdle =>
      exact ⟨hinv.regs.inHand_of_not_streaming (by rw [hinv.regs.idle_iff.1 hp]; nofun), rfl⟩
    | tWait =>
      rw [hp, hpend] at hs
      exact ⟨hinv.regs.inHand_of_not_streaming (of_decide_eq_true hs), rfl⟩
    | dPoll =>
      rw [hp, hpend] at hs
      have hready : s.ready = false := by simpa using hs
      exact ⟨by rw [inHand, hready, decodeOpen_of_tph hp]; rfl, rfl⟩
    | _ => rw [hp, hpend] at hs; cases hs
  obtain ⟨hin, hcount⟩ := hnone
  rw [hin] at hrec
  refine ⟨?_, hcount⟩
  by_cases hidle : s.link = .idle
  · obtain ⟨rfl, hk⟩ := hrec.idle hidle
    exact hk.symm
  have ha : s.rxa = true := (hrec.listens hidle).resolve_right (ne_true_of_eq_false hpend)
  rcases hinv.regs.rxcnt_lt_of_armed ha with ⟨hl, hlt⟩ | ⟨hl, hlt⟩
  · obtain ⟨hn, hk⟩ := hrec.awaiting hl
    rw [Bool.toNat_false] at hk
    omega
  · have hn := hrec.streaming hl
    rw [Bool.toNat_false] at hn
    omega

end Sys2Proof.Safety
end

section
namespace Sys2Proof.Proofs

open Sys2Proof.Machine Sys2Proof.Safety

/-- Settles O60: the run follows the sensor's stream, each completion being served by a decoder that has caught up, and a
settled block has nothing of it in hand. -/
theorem everyFrameIsDecodedUnderThePremises : Obligations.EveryFrameIsDecodedUnderThePremises := by
  intro x is s t hblock hlock hidle h7 h82 hdel hown hp1 hp2 hp3 hp4 hx
  have hstart : Follows x s 0 0 s := .start x hblock hidle
  obtain ⟨⟨d, h⟩, hnolost, hwhole⟩ : Tracked x s (is.flatMap received).length t ∧ EmitsNoLost s t ∧
      (is.flatMap received).length ≤ 7 + 84 * x.frames.length := by
    cases is with
    | nil => cases hx; exact ⟨⟨0, hstart⟩, EmitsNoLost.refl s, Nat.zero_le _⟩
    | cons i rest =>
      have hquiet : x.early = [] := by
        obtain ⟨⟨hquiet, -⟩, -⟩ := hp3
        exact hquiet
      have hm : x.Matching := ⟨hquiet, h7, h82, hp4⟩
      obtain ⟨htracked, hnolost⟩ := runInstrs_tracked hm _ hown hp1 hp2 hp3 (n := 0) hdel hlock ⟨0, hstart⟩ hx
      rw [Nat.zero_add] at htracked
      exact ⟨htracked, hnolost, hm.length_bytes ▸ hdel.length_le⟩
  refine ⟨hnolost.not_mem, h.receiving.ovr, h.receiving.hsbad, h.receiving.listens, fun hs => ?_⟩
  obtain ⟨hd, hcount⟩ := h.decoded_of_settled hs
  have htally := h.tallied
  rw [hcount, ← hd, ← x.map_verdictOf_take (by omega)] at htally
  exact htally

end Sys2Proof.Proofs
end
